-- ==== Sys2Proof/Word.lean ====
section
/-! DEFINITION. The word types of DCS-CORE: what the spec treats as bits. -/

namespace Sys2Proof

/-- One 32-bit register value, command word or event word (R9, R30, R60, R80). -/
abbrev Word := BitVec 32

/-- A source byte (R111). -/
abbrev Byte := BitVec 8

/-- A word address of the host port (R60). -/
abbrev PortAddr := BitVec 6

/-- A bit sequence in transmission order: the head is the first bit sent or fed (R10). -/
abbrev Bits := List Bool

end Sys2Proof
end

