-- ==== Sys2Proof/Syntax.lean ====
section
/-! DEFINITION. The commands of DCS-CORE: one constructor per row of the opcode table (R83, opcode_table.json). -/

namespace Sys2Proof

/-- A command with its operands (R82). Every operand is unsigned. -/
inductive Instr
  /-- NOP: do nothing (R290). -/
  | nop
  /-- CLR_ERR: clear the error latch (R291). -/
  | clrErr
  /-- SRC_CLEAR: empty the bit buffer (R110). -/
  | srcClear
  /-- LOADB byte: append one source byte, MSB first (R111). -/
  | loadb (byte : Byte)
  /-- RUN: start a run over the loaded bytes (R230). -/
  | run
  /-- CRC_INIT: load the CRC register's initial value (R131). -/
  | crcInit
  /-- CRC_BIT bit: feed one bit to the CRC generator (R132). -/
  | crcBit (bit : Bool)
  /-- CRC_BYTE byte: feed eight bits, MSB first (R133). -/
  | crcByte (byte : Byte)
  /-- CKS_INIT: clear the running sum (R151). -/
  | cksInit
  /-- CKS_ADD byte: add one byte with end-around carry (R152). -/
  | cksAdd (byte : Byte)
  /-- W_CLEAR: empty the work buffer (R180). -/
  | wClear
  /-- W_APPEND n, val: append the low `n` bits of `val`, MSB first (R181). The count is 1 … 16 and is encoded as NM1 = n − 1. -/
  | wAppend (n : Nat) (val : BitVec 16)
  /-- STUFF: stuff the work buffer as a frame (R182). -/
  | stuff
  /-- UNSTUFF: destuff the work buffer as a frame (R183). -/
  | unstuff
  /-- FRAME_LOAD idx: copy a stored frame into the work buffer (R184). -/
  | frameLoad (idx : BitVec 16)
  deriving DecidableEq, Repr

/-- The assigned opcodes by name (R83). -/
inductive Opcode
  | nop | clrErr | srcClear | loadb | run | crcInit | crcBit | crcByte | cksInit | cksAdd | wClear | wAppend | stuff | unstuff
  | frameLoad
  deriving DecidableEq, Repr

end Sys2Proof
end

