-- ==== Sys2Proof/WellFormed.lean ====
section
/-! DEFINITION. Which terms of `Instr` are commands: the operand ranges of R82 and R97. -/

namespace Sys2Proof

/-- Every operand but W_APPEND's count has exactly its field's width; the count n = NM1 + 1 lies in 1 … 16 (R82, R97). -/
def Instr.wellFormed : Instr → Bool
  | .wAppend n _ => 1 ≤ n && n ≤ 16
  | .nop | .clrErr | .srcClear | .loadb _ | .run | .crcInit | .crcBit _ | .crcByte _ | .cksInit | .cksAdd _ | .wClear
  | .stuff | .unstuff | .frameLoad _ => true

end Sys2Proof
end

