-- ==== Sys2Proof/Decode.lean ====
section
/-! DEFINITION. The command word's decoder (R80 to R84), total on any word and rejecting by name, and the encoder beside it. -/

namespace Sys2Proof

/-- Why a command word is illegal (R84). -/
inductive DecodeError
  /-- The opcode is not assigned. -/
  | badCmd
  /-- The opcode is assigned and a reserved operand bit is 1. -/
  | badArg
  deriving DecidableEq, Repr

/-- OPC of a command word: bits [31:24] (R80). -/
def opcField (v : Word) : BitVec 8 := v.extractLsb' 24 8

/-- OPND of a command word: bits [23:0] (R80). -/
def opndField (v : Word) : BitVec 24 := v.extractLsb' 0 24

/-- The opcode map (R83). -/
def Opcode.code : Opcode → BitVec 8
  | .nop => 0x00#8
  | .clrErr => 0x01#8
  | .srcClear => 0x10#8
  | .loadb => 0x11#8
  | .run => 0x12#8
  | .crcInit => 0x20#8
  | .crcBit => 0x21#8
  | .crcByte => 0x22#8
  | .cksInit => 0x30#8
  | .cksAdd => 0x31#8
  | .wClear => 0x40#8
  | .wAppend => 0x41#8
  | .stuff => 0x42#8
  | .unstuff => 0x43#8
  | .frameLoad => 0x44#8

/-- RESV_MASK: the operand bits that must be 0 (R82). -/
def Opcode.resvMask : Opcode → BitVec 24
  | .nop | .clrErr | .srcClear | .run | .crcInit | .cksInit | .wClear | .stuff | .unstuff => 0xFFFFFF#24
  | .loadb | .crcByte | .cksAdd => 0xFFFF00#24
  | .crcBit => 0xFFFFFE#24
  | .wAppend => 0xF00000#24
  | .frameLoad => 0xFF0000#24

/-- Every assigned opcode, in the table's order (R83). -/
def Opcode.all : List Opcode :=
  [.nop, .clrErr, .srcClear, .loadb, .run, .crcInit, .crcBit, .crcByte, .cksInit, .cksAdd, .wClear, .wAppend, .stuff,
    .unstuff, .frameLoad]

/-- The opcode that a value of OPC names, if it is assigned (R83, R84). -/
def opcodeOf (opc : BitVec 8) : Option Opcode := Opcode.all.find? fun o => o.code == opc

/-- The command with opcode `o` and operand fields `p` (R82). -/
def instrOf (o : Opcode) (p : BitVec 24) : Instr :=
  match o with
  | .nop => .nop
  | .clrErr => .clrErr
  | .srcClear => .srcClear
  | .loadb => .loadb (p.extractLsb' 0 8)
  | .run => .run
  | .crcInit => .crcInit
  | .crcBit => .crcBit (p.getLsbD 0)
  | .crcByte => .crcByte (p.extractLsb' 0 8)
  | .cksInit => .cksInit
  | .cksAdd => .cksAdd (p.extractLsb' 0 8)
  | .wClear => .wClear
  | .wAppend => .wAppend ((p.extractLsb' 16 4).toNat + 1) (p.extractLsb' 0 16)
  | .stuff => .stuff
  | .unstuff => .unstuff
  | .frameLoad => .frameLoad (p.extractLsb' 0 16)

/-- Decode one command word: BAD_CMD is checked before BAD_ARG (R81, R83). -/
def decode (v : Word) : Except DecodeError Instr :=
  match opcodeOf (opcField v) with
  | none => .error .badCmd
  | some o => if opndField v &&& o.resvMask = 0#24 then .ok (instrOf o (opndField v)) else .error .badArg

/-- The command a word of `nbits` bits decodes to, with the bits numbered as opcode_table.json numbers them. Every command is
exactly one 32-bit word (R80), so any higher bit is 0. -/
def decodeTableWord (nbits w : Nat) : Option Instr :=
  match decode (BitVec.ofNat 32 (w % 2 ^ nbits)) with
  | .ok i => some i
  | .error _ => none

/-- The opcode of a command (R83). -/
def Instr.opcode : Instr → Opcode
  | .nop => .nop
  | .clrErr => .clrErr
  | .srcClear => .srcClear
  | .loadb _ => .loadb
  | .run => .run
  | .crcInit => .crcInit
  | .crcBit _ => .crcBit
  | .crcByte _ => .crcByte
  | .cksInit => .cksInit
  | .cksAdd _ => .cksAdd
  | .wClear => .wClear
  | .wAppend _ _ => .wAppend
  | .stuff => .stuff
  | .unstuff => .unstuff
  | .frameLoad _ => .frameLoad

/-- The operand bits of a command: its fields in place, zeros elsewhere (R82, R97). -/
def Instr.operand : Instr → BitVec 24
  | .loadb b | .crcByte b | .cksAdd b => b.setWidth 24
  | .crcBit b => (BitVec.ofBool b).setWidth 24
  | .wAppend n v => (BitVec.ofNat 4 (n - 1) ++ v).setWidth 24
  | .frameLoad i => i.setWidth 24
  | .nop | .clrErr | .srcClear | .run | .crcInit | .cksInit | .wClear | .stuff | .unstuff => 0#24

/-- The word of a command: `OPC << 24 | fields` (R80, R97). -/
def encode (i : Instr) : Word := i.opcode.code ++ i.operand

end Sys2Proof
end

