-- ==== Sys2Proof/Config.lean ====
section
/-! DEFINITION. What the spec leaves to the implementation: the parameters of R8, and the free values that stand for contents
and reads the spec calls unspecified. -/

namespace Sys2Proof

/-- The parameters of R8. A model takes each as an argument: the machine holds them in `State.cfg`, which no transition
changes, so a claim about every state is a claim about every choice of them (log 1). -/
structure Config where
  /-- MAX_DATA_FRAMES: the most data frames one run can hold. -/
  maxDataFrames : Nat
  /-- EVT_DEPTH: the event FIFO's depth in words. -/
  evtDepth : Nat
  /-- CTRL_CODE: the control code of the checksum-control frame. -/
  ctrlCode : Byte
  deriving DecidableEq, Repr

/-- The constraints of R8 on the parameters (C4 for CTRL_CODE). -/
abbrev Config.legal (c : Config) : Prop :=
  1 ≤ c.maxDataFrames ∧ c.maxDataFrames ≤ 65280 ∧ 9 ≤ c.evtDepth ∧ (c.maxDataFrames - 1) / 256 < c.ctrlCode.toNat

/-- The spec's own default of each parameter (R8). -/
def Config.specDefault : Config := { maxDataFrames := 1024, evtDepth := 32, ctrlCode := 0xFF#8 }

/-- Free value: the bits an FTAB slot holds after the `resets`-th reset, before anything is written to it (R340; log 5). -/
opaque Config.powerUpFrame : (resets slot : Nat) → Bits

/-- Free value: the word a CTAB slot holds after the `resets`-th reset, before anything is written to it (R340; log 5). -/
opaque Config.powerUpCrc : (resets slot : Nat) → BitVec 16

/-- Free value: what a host read returns while the `resets`-th reset is asserted (93_implementation_defined.md; log 7). -/
opaque Config.readInReset : (resets : Nat) → PortAddr → Word

end Sys2Proof
end

