-- ==== Sys2Proof/Machine/State.lean ====
section
/-! DEFINITION. The state of DCS-CORE as plain data (10_state.md), the reasons a step could stop, and the state after reset
(R340). -/

namespace Sys2Proof.Machine

/-- The sequencer's phase (R28). Codes 10 to 15 are never taken. -/
inductive Phase
  | idle | build | cksum | send | loss | corr | recv | ack | summary | finish
  deriving DecidableEq, Repr

/-- The causes of an error (R300); code 0 is "no error latched". -/
inductive ErrorCause
  /-- 1: a command other than NOP or CLR_ERR while a run is in progress. -/
  | busy
  /-- 2: the opcode is not assigned. -/
  | badCmd
  /-- 3: a reserved operand bit, WLEN < 16 for STUFF or UNSTUFF, or IDX ≥ NFRAMES for FRAME_LOAD. -/
  | badArg
  /-- 4: LOADB past MAX_BITS. -/
  | overflow
  /-- 5: the work buffer would pass 256 bits. -/
  | wlenErr
  /-- 6: five 1s of a body followed by a 1. -/
  | unstuffViol
  /-- 7: a body that ends in five 1s. -/
  | unstuffTrunc
  /-- 8: a draw of 100 or more. -/
  | drawRange
  /-- 9: a draw while the slot is full. -/
  | drawOvf
  deriving DecidableEq, Repr

/-- A slot memory: the slots that have been written since reset, as (slot, content) pairs in rising order of slot. A slot that
is not listed has no value here (log 5, log 8). -/
abbrev Memory (α : Type) := List (Nat × α)

/-- The Stats registers (R25), 32 bits each. -/
structure Stats where
  /-- STAT_FRAMES -/
  frames : Word
  /-- STAT_ATTEMPTS -/
  attempts : Word
  /-- STAT_LOST -/
  lost : Word
  /-- STAT_CORRUPT -/
  corrupt : Word
  /-- STAT_ACKLOST -/
  ackLost : Word
  /-- STAT_CSCORRUPT -/
  csCorrupt : Word
  /-- STAT_MAXFRAME -/
  maxFrame : Word
  /-- STAT_MAXATT -/
  maxAtt : Word
  /-- STAT_ABANDONED -/
  abandoned : Word
  deriving DecidableEq, Repr

/-- All nine counters 0. -/
def Stats.zero : Stats :=
  { frames := 0, attempts := 0, lost := 0, corrupt := 0, ackLost := 0, csCorrupt := 0, maxFrame := 0, maxAtt := 0,
    abandoned := 0 }

/-- One access of the host's bus (R60): the only two there are. -/
inductive Access
  /-- `MemRead(a, 4)` -/
  | read (a : PortAddr)
  /-- `MemWrite(a, 4, v)` -/
  | write (a : PortAddr) (v : Word)
  deriving DecidableEq, Repr

/-- The atomic transitions (R64), and reset between any two of them (R340). -/
inductive Transition
  /-- The host makes one access. -/
  | host (acc : Access)
  /-- The sequencer takes the step of its phase, if it is enabled (R233). -/
  | sequencer
  /-- Reset is asserted; an access may be tried meanwhile (93_implementation_defined.md). -/
  | reset (during : Option Access)
  deriving DecidableEq, Repr

/-- The whole state. The fields down to `caphit` are the spec's; `cfg` holds the parameters; `sched`, `rdata` and `resets` are
the model's own. STATUS, BITLEN, WLEN, CKS_*, W_WORD* and EVT_COUNT are views with no storage (R22, R26, R29, R31). -/
structure State where
  /-- The parameters of R8; no transition changes them (log 1). -/
  cfg : Config
  /-- BITBUF (R22). -/
  bitbuf : Bits
  /-- FTAB (R23): the stuffed frames by index. -/
  ftab : Memory Bits
  /-- NFRAMES (R23). -/
  nframes : Word
  /-- CTAB (R24): the data frames' CRCs by index. -/
  ctab : Memory (BitVec 16)
  /-- STAT_FRAMES … STAT_ABANDONED (R25). -/
  stats : Stats
  /-- CRC (R26). -/
  crc : BitVec 16
  /-- SUM (R26). -/
  sum : BitVec 8
  /-- W (R26): the work buffer, WLEN bits long. -/
  w : Bits
  /-- PHASE (R27, R28). -/
  phase : Phase
  /-- NDATA (R27). -/
  ndata : BitVec 17
  /-- FIDX (R27). -/
  fidx : BitVec 17
  /-- ATT (R27). -/
  att : BitVec 7
  /-- DRAW_FULL (R27). -/
  drawFull : Bool
  /-- DRAW_VAL (R27), meaningful only while DRAW_FULL = 1. -/
  drawVal : BitVec 7
  /-- EVQ (R27): the event FIFO, oldest word first. -/
  evq : List Word
  /-- STATUS.DONE (R29). -/
  done : Bool
  /-- STATUS.ERR (R29, R302). -/
  err : Bool
  /-- STATUS.ERRCODE (R29, R300). -/
  errcode : BitVec 4
  /-- STATUS.CAPHIT (R29, R252). -/
  caphit : Bool
  /-- The transitions to come, in order (log 2). -/
  sched : List Transition
  /-- The word the port last returned to the host (log 4). -/
  rdata : Word
  /-- How often reset has been asserted: the argument of the free values (log 7). -/
  resets : Nat
  deriving DecidableEq, Repr

/-- Why the machine stops. Nothing in the block is a fault (93_implementation_defined.md, section 2): every misuse of the port
latches an error code or stalls, so there is no reason to name, and no state faults. -/
inductive Fault
  deriving DecidableEq, Repr

/-- Why an instruction has no meaning. -/
inductive Refusal
  /-- The instruction is not modelled; raised by no arm of `exec`, since every command has its meaning. Safe. -/
  | notModelled (mnemonic : String)
  deriving DecidableEq, Repr

/-- What a step answers. -/
abbrev Result := Host.Outcome State Fault Refusal

/-- The state after reset (R340), with the spec's default parameters (R8) and nothing scheduled. DRAW_VAL, which the spec
leaves unspecified, is 0 (log 6); so are the model's own fields (log 2, log 4, log 7). -/
def State.reset : State :=
  { cfg := Config.specDefault
    bitbuf := []
    ftab := []
    nframes := 0
    ctab := []
    stats := Stats.zero
    crc := 0xFFFF#16
    sum := 0
    w := []
    phase := .idle
    ndata := 0
    fidx := 0
    att := 0
    drawFull := false
    drawVal := 0
    evq := []
    done := false
    err := false
    errcode := 0
    caphit := false
    sched := []
    rdata := 0
    resets := 0 }

end Sys2Proof.Machine
end

