-- ==== Sys2Proof/Machine/Constants.lean ====
section
/-! DEFINITION. The constants the source fixes (R7), and the numbers the spec gives each phase and error cause (R28, R300). -/

namespace Sys2Proof

/-- MAX_BITS: the bit buffer's capacity (R8). -/
abbrev Config.maxBits (c : Config) : Nat := 100 * c.maxDataFrames

namespace Machine

/-- CRC_POLY (R7). -/
abbrev crcPoly : BitVec 16 := 0x1021#16

/-- CRC_INIT, the constant (R7). -/
abbrev crcInitial : BitVec 16 := 0xFFFF#16

/-- FLAG (R7). -/
abbrev flagByte : Byte := 0x7E#8

/-- SADDR (R7). -/
abbrev senderAddr : Byte := 0x01#8

/-- RADDR (R7). -/
abbrev receiverAddr : Byte := 0x02#8

/-- SEQ_BITS (R7). -/
abbrev seqBits : Nat := 16

/-- PAYLOAD_BITS (R7). -/
abbrev payloadBits : Nat := 100

/-- CRC_BITS (R7). -/
abbrev crcBits : Nat := 16

/-- STUFF_RUN (R7). -/
abbrev stuffRun : Nat := 5

/-- RETRY_CAP (R7). -/
abbrev retryCap : BitVec 7 := 100#7

/-- DRAW_MOD (R7). -/
abbrev drawMod : Byte := 100#8

/-- P_LOSS (R7). -/
abbrev pLoss : BitVec 7 := 10#7

/-- P_CORRUPT (R7). -/
abbrev pCorrupt : BitVec 7 := 20#7

/-- P_CSCORRUPT (R7). -/
abbrev pCsCorrupt : BitVec 7 := 5#7

/-- P_ACKLOSS (R7). -/
abbrev pAckLoss : BitVec 7 := 15#7

/-- FRAME_CAP (R7): also the size of the work buffer (R26). -/
abbrev frameCap : Nat := 256

/-- The code of a phase (R28). -/
def Phase.code : Phase → BitVec 4
  | .idle => 0#4
  | .build => 1#4
  | .cksum => 2#4
  | .send => 3#4
  | .loss => 4#4
  | .corr => 5#4
  | .recv => 6#4
  | .ack => 7#4
  | .summary => 8#4
  | .finish => 9#4

/-- need(P): the free event words a phase's step waits for (R28, R233). IDLE has no step. -/
def Phase.need : Phase → Nat
  | .idle => 0
  | .build => 2
  | .cksum => 1
  | .send => 2
  | .loss => 2
  | .corr => 2
  | .recv => 2
  | .ack => 2
  | .summary => 9
  | .finish => 1

/-- Whether a phase's step consumes a draw (R28, R213). -/
def Phase.drawing : Phase → Bool
  | .loss | .corr | .ack => true
  | .idle | .build | .cksum | .send | .recv | .summary | .finish => false

/-- The code of an error (R300). -/
def ErrorCause.code : ErrorCause → BitVec 4
  | .busy => 1#4
  | .badCmd => 2#4
  | .badArg => 3#4
  | .overflow => 4#4
  | .wlenErr => 5#4
  | .unstuffViol => 6#4
  | .unstuffTrunc => 7#4
  | .drawRange => 8#4
  | .drawOvf => 9#4

end Machine
end Sys2Proof
end

