-- ==== Sys2Proof/Machine/Operands.lean ====
section
/-! DEFINITION. The operand forms: bit sequences of values (R10, R65, R170), the values a command's operand fields stand for
(R82), and the port addresses (R30, R60). -/

namespace Sys2Proof.Machine

/-- `bitsMSB(v, n)`: the low `n` bits of `v`, most significant first (R10). -/
def bitsMSB {k : Nat} (v : BitVec k) : Nat → Bits
  | 0 => []
  | n + 1 => v.getLsbD n :: bitsMSB v n

/-- `zeros(n)` (R10). -/
def zeros (n : Nat) : Bits := List.replicate n false

/-- `ceil(x / y)` (R12). -/
def ceilDiv (x y : Nat) : Nat := (x + (y - 1)) / y

/-- The number of data frames a source of `len` bits takes (R114, R230). -/
def frameCount (len : Nat) : Nat := ceilDiv len payloadBits

/-- The bits W_APPEND appends: the low `n` bits of VAL, and no others (R82, R181). -/
def appendField (n : Nat) (val : BitVec 16) : Bits := bitsMSB val n

/-- The word whose bit 31 is the first bit of `s`, and whose bits past the end of `s` are 0 (R31). -/
def wordOfBits (s : Bits) : Word := BitVec.ofFnLE fun k : Fin 32 => s.getD (31 - k.val) false

/-- The registers of the port (R30). -/
inductive Reg
  | cmd | status | draw | evtData | evtCount | bitlen | nframes | crc | cksSum | cksResult | cksDiag | wlen
  | statFrames | statAttempts | statLost | statCorrupt | statAckLost | statCsCorrupt | statMaxFrame | statMaxAtt
  | statAbandoned
  /-- W_WORD`k` -/
  | wWord (k : Fin 8)
  deriving DecidableEq, Repr

/-- The word address of a register (R30). -/
def Reg.addr : Reg → PortAddr
  | .cmd => 0#6
  | .status => 1#6
  | .draw => 2#6
  | .evtData => 3#6
  | .evtCount => 4#6
  | .bitlen => 5#6
  | .nframes => 6#6
  | .crc => 7#6
  | .cksSum => 8#6
  | .cksResult => 9#6
  | .cksDiag => 10#6
  | .wlen => 11#6
  | .statFrames => 16#6
  | .statAttempts => 17#6
  | .statLost => 18#6
  | .statCorrupt => 19#6
  | .statAckLost => 20#6
  | .statCsCorrupt => 21#6
  | .statMaxFrame => 22#6
  | .statMaxAtt => 23#6
  | .statAbandoned => 24#6
  | .wWord k => BitVec.ofNat 6 (32 + k.val)

/-- Every register of the port (R30). -/
def Reg.all : List Reg :=
  [.cmd, .status, .draw, .evtData, .evtCount, .bitlen, .nframes, .crc, .cksSum, .cksResult, .cksDiag, .wlen, .statFrames,
    .statAttempts, .statLost, .statCorrupt, .statAckLost, .statCsCorrupt, .statMaxFrame, .statMaxAtt, .statAbandoned,
    .wWord 0, .wWord 1, .wWord 2, .wWord 3, .wWord 4, .wWord 5, .wWord 6, .wWord 7]

/-- The register at a word address; a reserved address has none (R30). -/
def regAt (a : PortAddr) : Option Reg := Reg.all.find? fun r => r.addr == a

/-- The byte address of a word of the port in a system map that puts the port at `base`, the parameter DCS_BASE (R60; log 10). -/
def byteAddress (base : Nat) (a : PortAddr) : Nat := base + 4 * a.toNat

/-- The word address a byte address of the system map names, for a port at `base`. A byte address outside the port's 256 bytes, or
with bits [1:0] ≠ 0 within it, never reaches the block: what a bridge does with it is DCS_BRIDGE's concern (R60, R66; log 10). -/
def portAddress (base addr : Nat) : Option PortAddr :=
  if base ≤ addr ∧ addr < base + 256 ∧ (addr - base) % 4 = 0 then some (BitVec.ofNat 6 ((addr - base) / 4)) else none

end Sys2Proof.Machine
end

