-- ==== Sys2Proof/Machine/Flags.lean ====
section
/-! DEFINITION. STATUS (R29): its views and the whole word. -/

namespace Sys2Proof.Machine

/-- STATUS.BUSY: a run is in progress (R29). -/
def State.busy (s : State) : Bool := decide (s.phase ≠ .idle)

/-- Whether EVQ lacks the room the current phase's step waits for: EVT_DEPTH − |EVQ| < need(PHASE) (R29, R233). -/
def State.noRoom (s : State) : Bool := decide (s.cfg.evtDepth < s.evq.length + s.phase.need)

/-- STATUS.DRAW_WAIT (R29). -/
def State.drawWait (s : State) : Bool := s.phase.drawing && !s.drawFull

/-- STATUS.EVT_STALL (R29). -/
def State.evtStall (s : State) : Bool := s.busy && s.noRoom

/-- STATUS as one word: [15:12] PHASE, [11:8] ERRCODE, [6] EVT_STALL, [5] DRAW_WAIT, [4] DRAW_FULL, [3] CAPHIT, [2] ERR, [1] DONE,
[0] BUSY; every other bit reads 0 (R29). -/
def State.status (s : State) : Word :=
  0#16 ++ s.phase.code ++ s.errcode ++ 0#1 ++ BitVec.ofBool s.evtStall ++ BitVec.ofBool s.drawWait ++ BitVec.ofBool s.drawFull ++
    BitVec.ofBool s.caphit ++ BitVec.ofBool s.err ++ BitVec.ofBool s.done ++ BitVec.ofBool s.busy

end Sys2Proof.Machine
end

