-- ==== Sys2Proof/Machine/Ops.lean ====
section
/-! DEFINITION. The named operations every meaning and sequencer step is written with: slot memories, the error latch (the one
place an error is taken, and its clearing), the guards, and the event FIFO. -/

namespace Sys2Proof.Machine

/-- The content of a slot, if it has been written. -/
def Memory.read {α : Type} (m : Memory α) (k : Nat) : Option α :=
  match m with
  | [] => none
  | (j, x) :: rest => if j = k then some x else Memory.read rest k

/-- Write a slot, keeping the slots in rising order with none listed twice. -/
def Memory.write {α : Type} (m : Memory α) (k : Nat) (x : α) : Memory α :=
  match m with
  | [] => [(k, x)]
  | (j, y) :: rest =>
    if k < j then (k, x) :: (j, y) :: rest else if k = j then (k, x) :: rest else (j, y) :: Memory.write rest k x

/-- The canonical form: the listed slots rise strictly. No entry can equal what an unlisted slot reads as, since that is no
value at all. -/
def Memory.wf {α : Type} : Memory α → Bool
  | [] => true
  | [_] => true
  | (j, _) :: (k, y) :: rest => decide (j < k) && Memory.wf ((k, y) :: rest)

/-- FTAB[k] (R23). A slot nothing has written since reset holds unspecified bits, at most 256 of them (R340; log 5). -/
def State.frameAt (s : State) (k : Nat) : Bits := (s.ftab.read k).getD ((Config.powerUpFrame s.resets k).take frameCap)

/-- CTAB[k] (R24). A slot nothing has written since reset holds an unspecified word (R340; log 5). -/
def State.crcAt (s : State) (k : Nat) : BitVec 16 := (s.ctab.read k).getD (Config.powerUpCrc s.resets k)

/-- `raise Error(c)`: latch the first error, and change nothing else (R302). ERR is 1 afterwards in either case; ERRCODE keeps
the code of an error latched before. -/
def raiseError (c : ErrorCause) (s : State) : State := { s with err := true, errcode := if s.err then s.errcode else c.code }

/-- Clear the error latch: ERR ← 0, ERRCODE ← 0 (R291, R305). It resumes nothing, since nothing was suspended. -/
def clearError (s : State) : State := { s with err := false, errcode := 0 }

/-- An access that raises an error: the latch is its only effect (R302). -/
def raised (c : ErrorCause) (s : State) : Result := .next (raiseError c s)

/-- The BUSY guard of every command but NOP and CLR_ERR (R81, R350). -/
def whenIdle (s : State) (body : Result) : Result := if s.busy then raised .busy s else body

/-- `push(w0, …, wk)`: append one event's words to the tail of EVQ, in order (R232). -/
def push (ws : List Word) (s : State) : State := { s with evq := s.evq ++ ws }

/-- Consume the draw in the slot (R213). Its value is `s.drawVal`, read before. -/
def takeDraw (s : State) : State := { s with drawFull := false }

end Sys2Proof.Machine
end

