-- ==== Sys2Proof/Machine/BitSource.lean ====
section
/-! DEFINITION. The bit source loader: SRC_CLEAR and LOADB (41_bitsource.md). -/

namespace Sys2Proof.Machine

/-- SRC_CLEAR: empty the bit buffer (R110). -/
def execSrcClear (s : State) : Result := whenIdle s (.next { s with bitbuf := [] })

/-- LOADB byte: append the byte MSB first; past MAX_BITS it raises OVERFLOW and loads nothing (R111). -/
def execLoadb (byte : Byte) (s : State) : Result :=
  whenIdle s <|
    if s.bitbuf.length + 8 > s.cfg.maxBits then raised .overflow s
    else .next { s with bitbuf := s.bitbuf ++ bitsMSB byte 8 }

end Sys2Proof.Machine
end

