-- ==== Sys2Proof/Machine/Control.lean ====
section
/-! DEFINITION. The control commands NOP and CLR_ERR (47_system.md). Both are accepted while a run is in progress. -/

namespace Sys2Proof.Machine

/-- NOP: do nothing (R290). -/
def execNop (s : State) : Result := .next s

/-- CLR_ERR: clear the error latch, and nothing else (R291). -/
def execClrErr (s : State) : Result := .next (clearError s)

end Sys2Proof.Machine
end

