-- ==== Sys2Proof/Machine/Channel.lean ====
section
/-! DEFINITION. The channel decision unit and the draw slot (45_channel.md). -/

namespace Sys2Proof.Machine

/-- Data-frame loss, 10 percent (R210). -/
def dataLost (r : BitVec 7) : Bool := r < pLoss

/-- Data-frame corruption, 20 percent (R210). -/
def dataCorrupt (r : BitVec 7) : Bool := r < pCorrupt

/-- Checksum-control-frame corruption, 5 percent (R210). -/
def ctrlCorrupt (r : BitVec 7) : Bool := r < pCsCorrupt

/-- Acknowledgment loss, 15 percent, for both frame roles (R210). -/
def ackLost (r : BitVec 7) : Bool := r < pAckLoss

/-- The draw a DRAW word carries: bits [7:0]; bits [31:8] are ignored (R85). -/
def drawField (v : Word) : Byte := v.extractLsb' 0 8

/-- A write to DRAW offers one draw (R211). It is no command, so no BUSY guard stands before it. -/
def drawWrite (v : Word) (s : State) : Result :=
  if drawField v ≥ drawMod then raised .drawRange s
  else if s.drawFull then raised .drawOvf s
  else .next { s with drawVal := (drawField v).setWidth 7, drawFull := true }

end Sys2Proof.Machine
end

