-- ==== Sys2Proof/Machine/Checksum.lean ====
section
/-! DEFINITION. The one's-complement checksum unit and its commands (43_checksum.md). -/

namespace Sys2Proof.Machine

/-- Add one byte with end-around carry: exact sum first, then the wrap (R150). -/
def cksAdd (s v : BitVec 8) : BitVec 8 :=
  let t := s.toNat + v.toNat
  BitVec.ofNat 8 (if t > 255 then t % 256 + 1 else t)

/-- The running wrapped sum of a byte sequence from 0 (R150). -/
def cksSum (bs : List Byte) : BitVec 8 := bs.foldl cksAdd 0#8

/-- The checksum of a running sum: its one's complement (R150, R153). -/
def cksResult (sum : BitVec 8) : BitVec 8 := ~~~sum

/-- The diagnostic value of a running sum: one more than it, 1 … 256 (R150, R153, C1). -/
def cksDiag (sum : BitVec 8) : Word := sum.setWidth 32 + 1#32

/-- CKS_INIT (R151). -/
def execCksInit (s : State) : Result := whenIdle s (.next { s with sum := 0#8 })

/-- CKS_ADD byte (R152). -/
def execCksAdd (byte : Byte) (s : State) : Result := whenIdle s (.next { s with sum := cksAdd s.sum byte })

end Sys2Proof.Machine
end

