-- ==== Sys2Proof/Machine/Crc.lean ====
section
/-! DEFINITION. The CRC-16 generator and its commands (42_crc.md). -/

namespace Sys2Proof.Machine

/-- One step of the generator: shift left and, when the bit shifted out differs from the incoming bit, XOR in the polynomial
(R130). -/
def crcStep (c : BitVec 16) (b : Bool) : BitVec 16 :=
  if (c.getLsbD 15 ^^ b) = true then (c <<< 1) ^^^ crcPoly else c <<< 1

/-- Feed a bit sequence, first bit first (R130). -/
def crcFrom (c : BitVec 16) (s : Bits) : BitVec 16 := s.foldl crcStep c

/-- The CRC of a bit sequence: no reflection and no final XOR (R130). -/
def crc16 (s : Bits) : BitVec 16 := crcFrom crcInitial s

/-- CRC_INIT (R131). -/
def execCrcInit (s : State) : Result := whenIdle s (.next { s with crc := crcInitial })

/-- CRC_BIT bit (R132). -/
def execCrcBit (bit : Bool) (s : State) : Result := whenIdle s (.next { s with crc := crcStep s.crc bit })

/-- CRC_BYTE byte: eight steps, BYTE[7] first (R133). -/
def execCrcByte (byte : Byte) (s : State) : Result := whenIdle s (.next { s with crc := crcFrom s.crc (bitsMSB byte 8) })

end Sys2Proof.Machine
end

