-- ==== Sys2Proof/Machine/Framer.lean ====
section
/-! DEFINITION. The frame builder, the HDLC stuffer and destuffer, and the work-buffer commands (44_framer.md). -/

namespace Sys2Proof.Machine

/-- payload(i): the 100 bits of the source from bit 100·i on, padded with zeros past its end (R171). -/
def payload (src : Bits) (i : Nat) : Bits :=
  let p := (src.drop (payloadBits * i)).take payloadBits
  p ++ zeros (payloadBits - p.length)

/-- The raw data frame with sequence number `i`, payload `p` and the payload's CRC (R172). -/
def dataRaw (i : Word) (p : Bits) (crc : BitVec 16) : Bits :=
  bitsMSB flagByte 8 ++ bitsMSB senderAddr 8 ++ bitsMSB receiverAddr 8 ++ bitsMSB i seqBits ++ p ++ bitsMSB crc crcBits ++
    bitsMSB flagByte 8

/-- The raw checksum-control frame for the checksum `ck` (R173). -/
def ctrlRaw (code ck : Byte) : Bits :=
  bitsMSB flagByte 8 ++ bitsMSB senderAddr 8 ++ bitsMSB receiverAddr 8 ++ bitsMSB code 8 ++ bitsMSB ck 8 ++ bitsMSB flagByte 8

/-- The stuffer's scan with `cnt` consecutive 1s seen: a 0 goes in right after the fifth (R174). -/
def stuffFrom (cnt : Nat) : Bits → Bits
  | [] => []
  | true :: m => if cnt + 1 = stuffRun then true :: false :: stuffFrom 0 m else true :: stuffFrom (cnt + 1) m
  | false :: m => false :: stuffFrom 0 m

/-- stuffBody (R174). -/
def stuffBody (m : Bits) : Bits := stuffFrom 0 m

/-- Why a body is not a stuffed body (R176). -/
inductive Destuff
  /-- Five 1s are followed by a 1. -/
  | viol
  /-- The body ends in five 1s with no stuffed 0 after them. -/
  | trunc
  deriving DecidableEq, Repr

/-- The destuffer's scan with `cnt` consecutive 1s seen: after five, a 0 is dropped and a 1 is a violation (R176). -/
def unstuffFrom (cnt : Nat) : Bits → Except Destuff Bits
  | [] => if cnt = stuffRun then .error .trunc else .ok []
  | b :: y =>
    if cnt = stuffRun then
      if b then .error .viol else unstuffFrom 0 y
    else
      match unstuffFrom (if b then cnt + 1 else 0) y with
      | .ok out => .ok (b :: out)
      | .error e => .error e

/-- unstuffBody (R176). -/
def unstuffBody (y : Bits) : Except Destuff Bits := unstuffFrom 0 y

/-- The opening 8 bits of a frame (R175). -/
def frameHead (f : Bits) : Bits := f.take 8

/-- The body: the bits strictly between the opening 8 and the closing 8 (R175, R13). -/
def frameBody (f : Bits) : Bits := (f.drop 8).take (f.length - 16)

/-- The closing 8 bits of a frame (R175). -/
def frameTail (f : Bits) : Bits := f.drop (f.length - 8)

/-- stuffFrame, for |f| ≥ 16 (R175). -/
def stuffFrame (f : Bits) : Bits := frameHead f ++ stuffBody (frameBody f) ++ frameTail f

/-- unstuffFrame, for |f| ≥ 16: it fails when unstuffBody fails (R177). -/
def unstuffFrame (f : Bits) : Except Destuff Bits :=
  match unstuffBody (frameBody f) with
  | .ok m => .ok (frameHead f ++ m ++ frameTail f)
  | .error e => .error e

/-- The error a destuffing verdict raises (R183). -/
def Destuff.cause : Destuff → ErrorCause
  | .viol => .unstuffViol
  | .trunc => .unstuffTrunc

/-- W_CLEAR (R180). -/
def execWClear (s : State) : Result := whenIdle s (.next { s with w := [] })

/-- W_APPEND n, val (R181). -/
def execWAppend (n : Nat) (val : BitVec 16) (s : State) : Result :=
  whenIdle s <|
    if s.w.length + n > frameCap then raised .wlenErr s else .next { s with w := s.w ++ appendField n val }

/-- STUFF (R182). -/
def execStuff (s : State) : Result :=
  whenIdle s <|
    if s.w.length < 16 then raised .badArg s
    else if (stuffFrame s.w).length > frameCap then raised .wlenErr s
    else .next { s with w := stuffFrame s.w }

/-- UNSTUFF (R183). -/
def execUnstuff (s : State) : Result :=
  whenIdle s <|
    if s.w.length < 16 then raised .badArg s
    else
      match unstuffFrame s.w with
      | .ok r => .next { s with w := r }
      | .error e => raised e.cause s

/-- FRAME_LOAD idx (R184). -/
def execFrameLoad (idx : BitVec 16) (s : State) : Result :=
  whenIdle s <|
    if idx.toNat ≥ s.nframes.toNat then raised .badArg s else .next { s with w := s.frameAt idx.toNat }

end Sys2Proof.Machine
end

