-- ==== Sys2Proof/Machine/Run.lean ====
section
/-! DEFINITION. The run sequencer and Stop-and-Wait ARQ controller: RUN, the enabling rule and the step of each phase
(46_arq_run.md), with the event words of 30_encoding.md. -/

namespace Sys2Proof.Machine

/-- The delivery steps an event announces (R93). -/
inductive Kind
  | sent | lost | corrupted | received | ackLost | ackReceived
  deriving DecidableEq, Repr

/-- KIND (R93). -/
def Kind.code : Kind → Word
  | .sent => 0#32
  | .lost => 1#32
  | .corrupted => 2#32
  | .received => 3#32
  | .ackLost => 4#32
  | .ackReceived => 5#32

/-- ROLE: 0 sender, 1 receiver (R93). -/
def Kind.role : Kind → Word
  | .corrupted | .received => 1#32
  | .sent | .lost | .ackLost | .ackReceived => 0#32

/-- The frame in flight is the checksum-control frame (R93, R232). -/
def State.ctl (s : State) : Bool := decide (s.fidx = s.ndata)

/-- The header word of a DELIVERY event (R93, R232). -/
def deliveryHeader (k : Kind) (ctl : Bool) : Word :=
  0x31000000#32 ||| k.role <<< 23 ||| k.code <<< 20 ||| (BitVec.ofBool ctl).setWidth 32 <<< 19

/-- DLV(kind): the two DELIVERY words for the current FIDX and ATT (R232). -/
def delivery (k : Kind) (s : State) : List Word :=
  [deliveryHeader k s.ctl, s.fidx.setWidth 32 <<< 16 ||| s.att.setWidth 32]

/-- FRAME_CRC (R91). -/
def frameCrcEvent (i : Word) (crc : BitVec 16) : List Word := [0x11000000#32, i <<< 16 ||| crc.setWidth 32]

/-- CHECKSUM (R92). -/
def checksumEvent (sum : BitVec 8) : List Word := [0x20000000#32 ||| cksDiag sum <<< 8 ||| (cksResult sum).setWidth 32]

/-- SUMMARY (R94). -/
def summaryEvent (t : Stats) : List Word :=
  [0x48000000#32, t.frames, t.attempts, t.lost, t.corrupt, t.ackLost, t.csCorrupt, t.maxFrame, t.maxAtt]

/-- FINISHED (R95). -/
def finishedEvent : List Word := [0x50000000#32]

/-- What an accepted RUN does (R230). BITBUF, W and EVQ are kept; FTAB and CTAB are kept too, unreadable since NFRAMES is 0. -/
def startRun (s : State) : State :=
  let n := BitVec.ofNat 17 (frameCount s.bitbuf.length)
  { s with
    ndata := n
    stats := { Stats.zero with frames := n.setWidth 32 + 1#32 }
    caphit := false
    done := false
    drawFull := false
    nframes := 0#32
    crc := crcInitial
    sum := 0#8
    fidx := 0#17
    att := 0#7
    phase := if 0#17 < n then .build else .cksum }

/-- RUN: refused with no effect and no new code while ERR = 1 (R230). -/
def execRun (s : State) : Result := whenIdle s <| if s.err then .next s else .next (startRun s)

/-- Enabling: room in EVQ for the phase's largest push and, for a draw-consuming phase, a draw (R233). IDLE has no step
(R231). -/
def State.enabled (s : State) : Bool := s.busy && !s.noRoom && (!s.phase.drawing || s.drawFull)

/-- BUILD: build data frame `i = NFRAMES` (R234). -/
def stepBuild (s : State) : State :=
  let i := s.nframes
  let p := payload s.bitbuf i.toNat
  let c := crc16 p
  push (frameCrcEvent i c)
    { s with
      crc := c
      ctab := s.ctab.write i.toNat c
      ftab := s.ftab.write i.toNat (stuffFrame (dataRaw i p c))
      nframes := i + 1#32
      phase := if i + 1#32 = s.ndata.setWidth 32 then .cksum else .build }

/-- The checksum input of a run: every data frame's CRC, high byte first, in sequence order (R155). -/
def cksInput (s : State) : List Byte :=
  (List.range s.ndata.toNat).flatMap fun i => [(s.crcAt i).extractLsb' 8 8, (s.crcAt i).extractLsb' 0 8]

/-- CKSUM: compute the run checksum and build the checksum-control frame (R235). -/
def stepCksum (s : State) : State :=
  let sum := cksSum (cksInput s)
  push (checksumEvent sum)
    { s with
      sum := sum
      ftab := s.ftab.write s.ndata.toNat (stuffFrame (ctrlRaw s.cfg.ctrlCode (cksResult sum)))
      nframes := s.ndata.setWidth 32 + 1#32
      fidx := 0#17
      att := 0#7
      phase := .send }

/-- SEND: start an attempt (R236). -/
def stepSend (s : State) : State :=
  let t := { s with att := s.att + 1#7, stats := { s.stats with attempts := s.stats.attempts + 1#32 } }
  push (delivery .sent t) { t with phase := if s.fidx < s.ndata then .loss else .corr }

/-- endFrame(): close the frame in flight, tracking the maximum (R251). -/
def endFrame (s : State) : State :=
  let next := s.fidx + 1#17
  { s with
    stats :=
      if s.att.setWidth 32 > s.stats.maxAtt then
        { s.stats with maxAtt := s.att.setWidth 32, maxFrame := s.fidx.setWidth 32 }
      else s.stats
    fidx := next
    att := 0#7
    phase := if next ≤ s.ndata then .send else .summary }

/-- attemptFailed(): retry the frame or, at the cap, give it up (R250, R252). -/
def attemptFailed (s : State) : State :=
  if s.att < retryCap then { s with phase := .send }
  else endFrame { s with caphit := true, stats := { s.stats with abandoned := s.stats.abandoned + 1#32 } }

/-- LOSS: the loss decision of a data frame (R237). -/
def stepLoss (s : State) : State :=
  let t := takeDraw s
  if dataLost s.drawVal then
    attemptFailed (push (delivery .lost t) { t with stats := { t.stats with lost := t.stats.lost + 1#32 } })
  else { t with phase := .corr }

/-- CORR: the corruption decision of the frame's role; it changes a counter and an event, and delivery goes on (R238, R215). -/
def stepCorr (s : State) : State :=
  let t := { takeDraw s with phase := .recv }
  if s.fidx < s.ndata then
    if dataCorrupt s.drawVal then
      push (delivery .corrupted t) { t with stats := { t.stats with corrupt := t.stats.corrupt + 1#32 } }
    else t
  else if ctrlCorrupt s.drawVal then
    push (delivery .corrupted t) { t with stats := { t.stats with csCorrupt := t.stats.csCorrupt + 1#32 } }
  else t

/-- RECV: the frame is received (R239). -/
def stepRecv (s : State) : State := push (delivery .received s) { s with phase := .ack }

/-- ACK: the acknowledgment-loss decision (R240). -/
def stepAck (s : State) : State :=
  let t := takeDraw s
  if ackLost s.drawVal then
    attemptFailed (push (delivery .ackLost t) { t with stats := { t.stats with ackLost := t.stats.ackLost + 1#32 } })
  else endFrame (push (delivery .ackReceived t) t)

/-- SUMMARY (R260). -/
def stepSummary (s : State) : State := push (summaryEvent s.stats) { s with phase := .finish }

/-- FINISH (R261). -/
def stepFinish (s : State) : State := push finishedEvent { s with done := true, phase := .idle }

/-- The step of the current phase, whether or not it is enabled (R231). -/
def phaseStep (s : State) : State :=
  match s.phase with
  | .idle => s
  | .build => stepBuild s
  | .cksum => stepCksum s
  | .send => stepSend s
  | .loss => stepLoss s
  | .corr => stepCorr s
  | .recv => stepRecv s
  | .ack => stepAck s
  | .summary => stepSummary s
  | .finish => stepFinish s

/-- The sequencer's transition: its phase's step if it is enabled; a step that is not enabled waits (R231, R233, R351). -/
def sequencerStep (s : State) : State := if s.enabled then phaseStep s else s

end Sys2Proof.Machine
end

