-- ==== Sys2Proof/Machine/Dispatch.lean ====
section
/-! DEFINITION. One arm per command. -/

namespace Sys2Proof.Machine

/-- The meaning of a command issued in a state: its BUSY guard (R81), its own checks and its effect. -/
def exec (i : Instr) (s : State) : Host.Outcome State Fault Refusal :=
  match i with
  -- control (47_system.md)
  | .nop => Sys2Proof.Machine.execNop s
  | .clrErr => Sys2Proof.Machine.execClrErr s
  -- bit source (41_bitsource.md)
  | .srcClear => Sys2Proof.Machine.execSrcClear s
  | .loadb byte => Sys2Proof.Machine.execLoadb byte s
  -- run sequencer (46_arq_run.md)
  | .run => Sys2Proof.Machine.execRun s
  -- CRC-16 generator (42_crc.md)
  | .crcInit => Sys2Proof.Machine.execCrcInit s
  | .crcBit bit => Sys2Proof.Machine.execCrcBit bit s
  | .crcByte byte => Sys2Proof.Machine.execCrcByte byte s
  -- checksum unit (43_checksum.md)
  | .cksInit => Sys2Proof.Machine.execCksInit s
  | .cksAdd byte => Sys2Proof.Machine.execCksAdd byte s
  -- framer (44_framer.md)
  | .wClear => Sys2Proof.Machine.execWClear s
  | .wAppend n val => Sys2Proof.Machine.execWAppend n val s
  | .stuff => Sys2Proof.Machine.execStuff s
  | .unstuff => Sys2Proof.Machine.execUnstuff s
  | .frameLoad idx => Sys2Proof.Machine.execFrameLoad idx s

end Sys2Proof.Machine
end

