-- ==== Sys2Proof/Machine/Port.lean ====
section
/-! DEFINITION. The host port: register reads, register writes with the command they issue, and the block's transitions
(20_memory.md, R81, R340). -/

namespace Sys2Proof.Machine

/-- The value a register reads as, side effects apart (R30, R31, R26, R29). CMD and DRAW are write-only and read 0; EVT_DATA is
the oldest event word, or 0 if there is none (R63). -/
def readReg (r : Reg) (s : State) : Word :=
  match r with
  | .cmd => 0#32
  | .status => s.status
  | .draw => 0#32
  | .evtData => s.evq.headD 0#32
  | .evtCount => BitVec.ofNat 32 s.evq.length
  | .bitlen => BitVec.ofNat 32 s.bitbuf.length
  | .nframes => s.nframes
  | .crc => s.crc.setWidth 32
  | .cksSum => s.sum.setWidth 32
  | .cksResult => (cksResult s.sum).setWidth 32
  | .cksDiag => cksDiag s.sum
  | .wlen => BitVec.ofNat 32 s.w.length
  | .statFrames => s.stats.frames
  | .statAttempts => s.stats.attempts
  | .statLost => s.stats.lost
  | .statCorrupt => s.stats.corrupt
  | .statAckLost => s.stats.ackLost
  | .statCsCorrupt => s.stats.csCorrupt
  | .statMaxFrame => s.stats.maxFrame
  | .statMaxAtt => s.stats.maxAtt
  | .statAbandoned => s.stats.abandoned
  | .wWord k => wordOfBits (s.w.drop (32 * k.val))

/-- What `MemRead(a, 4)` returns: a reserved address reads 0 (R61). -/
def readWord (a : PortAddr) (s : State) : Word :=
  match regAt a with
  | some r => readReg r s
  | none => 0#32

/-- `MemRead(a, 4)`: the word goes to the host, and a read of EVT_DATA pops (R61, R63). -/
def busRead (a : PortAddr) (s : State) : State :=
  { s with rdata := readWord a s, evq := if regAt a = some .evtData then s.evq.tail else s.evq }

/-- NOP and CLR_ERR are the opcodes accepted while a run is in progress (R81). -/
def acceptedWhileBusy (opc : BitVec 8) : Bool := opc == Opcode.code .nop || opc == Opcode.code .clrErr

/-- The error an illegal command word raises: BUSY is checked first (R81, R301). -/
def illegalCommand (v : Word) (e : DecodeError) (s : State) : Result :=
  if s.busy && !acceptedWhileBusy (opcField v) then raised .busy s
  else
    match e with
    | .badCmd => raised .badCmd s
    | .badArg => raised .badArg s

/-- A write to CMD issues the command `v` (R62, R81). -/
def commandWrite (v : Word) (s : State) : Result :=
  match decode v with
  | .ok i => exec i s
  | .error e => illegalCommand v e s

/-- `MemWrite(a, 4, v)`: a command, a draw, or ignored (R62). -/
def busWrite (a : PortAddr) (v : Word) (s : State) : Result :=
  match regAt a with
  | some .cmd => commandWrite v s
  | some .draw => drawWrite v s
  | _ => .next s

/-- One host access (R60). -/
def hostAccess (acc : Access) (s : State) : Result :=
  match acc with
  | .read a => .next (busRead a s)
  | .write a v => busWrite a v s

/-- The reset transition (R340, R341). The parameters and what is scheduled are not the block's state and stay. While reset is
asserted a read returns any value and a write has no lasting effect (93_implementation_defined.md; log 7). -/
def resetBlock (during : Option Access) (s : State) : State :=
  { State.reset with
    cfg := s.cfg
    sched := s.sched
    resets := s.resets + 1
    rdata :=
      match during with
      | some (.read a) => Config.readInReset s.resets a
      | some (.write _ _) | none => s.rdata }

/-- One transition (R64, R340). -/
def transition (t : Transition) (s : State) : Result :=
  match t with
  | .host acc => hostAccess acc s
  | .sequencer => .next (sequencerStep s)
  | .reset during => .next (resetBlock during s)

end Sys2Proof.Machine
end

