-- ==== Sys2Proof/Machine/Step.lean ====
section
/-! DEFINITION. One step of the machine: the next scheduled transition, or the sequencer's own while the host does nothing. -/

namespace Sys2Proof.Machine

/-- Perform the first transition scheduled. With nothing scheduled the host makes no access, and the sequencer goes on as far as it
is enabled (R231, R64; log 2). -/
def step (s : State) : Host.Outcome State Fault Refusal :=
  match s.sched with
  | [] => .next (sequencerStep s)
  | t :: rest => transition t { s with sched := rest }

/-- `s` with a write of the command word `w` to CMD as the next transition. The block fetches nothing (R21, R73): a command runs
when the host writes it, so the place of the next instruction is the head of what the host does next (log 3). -/
def State.withFetchWord (s : State) (nbits w : Nat) : State :=
  { s with sched := .host (.write Reg.cmd.addr (BitVec.ofNat 32 (w % 2 ^ nbits))) :: s.sched }

end Sys2Proof.Machine
end

