-- ==== Sys2Proof/Machine/Script.lean ====
section
/-! DEFINITION. The host's written forms: the command assembler (R97), host scripts (R98) and pseudo-instructions (R99). They have
no semantics of their own (D43): each becomes commands and bus accesses. -/

namespace Sys2Proof.Machine

/-- The mnemonics (R83, R97). -/
def mnemonicOf : Opcode → String
  | .nop => "NOP"
  | .clrErr => "CLR_ERR"
  | .srcClear => "SRC_CLEAR"
  | .loadb => "LOADB"
  | .run => "RUN"
  | .crcInit => "CRC_INIT"
  | .crcBit => "CRC_BIT"
  | .crcByte => "CRC_BYTE"
  | .cksInit => "CKS_INIT"
  | .cksAdd => "CKS_ADD"
  | .wClear => "W_CLEAR"
  | .wAppend => "W_APPEND"
  | .stuff => "STUFF"
  | .unstuff => "UNSTUFF"
  | .frameLoad => "FRAME_LOAD"

/-- A command from its mnemonic and operands: an operand out of its range is rejected, never truncated (R97). -/
def assemble (o : Opcode) (operands : List Nat) : Option Instr :=
  match o, operands with
  | .nop, [] => some .nop
  | .clrErr, [] => some .clrErr
  | .srcClear, [] => some .srcClear
  | .loadb, [b] => if b ≤ 255 then some (.loadb (BitVec.ofNat 8 b)) else none
  | .run, [] => some .run
  | .crcInit, [] => some .crcInit
  | .crcBit, [b] => if b ≤ 1 then some (.crcBit (decide (b = 1))) else none
  | .crcByte, [b] => if b ≤ 255 then some (.crcByte (BitVec.ofNat 8 b)) else none
  | .cksInit, [] => some .cksInit
  | .cksAdd, [b] => if b ≤ 255 then some (.cksAdd (BitVec.ofNat 8 b)) else none
  | .wClear, [] => some .wClear
  | .wAppend, [n, v] => if 1 ≤ n ∧ n ≤ 16 ∧ v ≤ 0xFFFF then some (.wAppend n (BitVec.ofNat 16 v)) else none
  | .stuff, [] => some .stuff
  | .unstuff, [] => some .unstuff
  | .frameLoad, [i] => if i ≤ 0xFFFF then some (.frameLoad (BitVec.ofNat 16 i)) else none
  | _, _ => none

/-- The value of one digit in a base, if it is a digit of that base. Hexadecimal letters may be of either case (log 13). -/
def digitValue (base : Nat) (c : Char) : Option Nat :=
  let n := c.toNat
  let d := if 48 ≤ n ∧ n ≤ 57 then n - 48 else if 65 ≤ n ∧ n ≤ 70 then n - 55 else if 97 ≤ n ∧ n ≤ 102 then n - 87 else base
  if d < base then some d else none

/-- The value of a string of digits after `acc`. -/
def digitsValue (base acc : Nat) : List Char → Option Nat
  | [] => some acc
  | c :: cs =>
    match digitValue base c with
    | some d => digitsValue base (acc * base + d) cs
    | none => none

/-- A number in decimal, `0x` hexadecimal or `0b` binary (R97). -/
def parseNumber : List Char → Option Nat
  | [] => none
  | '0' :: 'x' :: c :: cs => digitsValue 16 0 (c :: cs)
  | '0' :: 'b' :: c :: cs => digitsValue 2 0 (c :: cs)
  | c :: cs => digitsValue 10 0 (c :: cs)

/-- The comma-separated operands of a command line, blanks left out (R97; log 13). -/
def parseOperands (text : List Char) : Option (List Nat) :=
  let body := text.filter fun c => c ≠ ' '
  if body = [] then some [] else ((body.splitOn ',').map parseNumber).mapM id

/-- One line of the command assembler: `MNEMONIC` or `MNEMONIC operand[, operand]` (R97). -/
def assembleLine (text : String) : Option Instr :=
  let body := text.toList.dropWhile fun c => c = ' '
  let name := body.takeWhile fun c => c ≠ ' '
  match Opcode.all.find? fun o => (mnemonicOf o).toList == name with
  | none => none
  | some o =>
    match parseOperands (body.drop name.length) with
    | some ns => assemble o ns
    | none => none

/-- A line of a host script (R98). -/
inductive ScriptLine
  /-- `WR reg, value` -/
  | wr (r : Reg) (v : Word)
  /-- `RD reg`, with the value expected, if one is written -/
  | rd (r : Reg) (expected : Option Word)
  /-- A command mnemonic line: shorthand for `WR CMD, <its encoding>` -/
  | command (i : Instr)
  /-- `DRAW v`: shorthand for `WR DRAW, v` -/
  | draw (v : Word)
  /-- `WAIT reg.FIELD = v` that found its value at the `polls`-th read -/
  | wait (r : Reg) (polls : Nat)
  deriving DecidableEq, Repr

/-- The bus accesses a line stands for (R98). WAIT is polling and adds no access of its own kind (log 13). -/
def ScriptLine.accesses : ScriptLine → List Access
  | .wr r v => [.write r.addr v]
  | .rd r _ => [.read r.addr]
  | .command i => [.write Reg.cmd.addr (encode i)]
  | .draw v => [.write Reg.draw.addr v]
  | .wait r polls => List.replicate polls (.read r.addr)

/-- A state whose host is about to perform a script with no sequencer step between its accesses; further transitions may be put
anywhere into `sched` (R64). -/
def State.withScript (s : State) (lines : List ScriptLine) : State :=
  { s with sched := lines.flatMap (fun l => l.accesses.map Transition.host) ++ s.sched }

/-- `LOADS b0, …, bk` (R99). -/
def pseudoLoads (bs : List Byte) : List Instr := bs.map .loadb

/-- `CRC_HALF v` (R99). -/
def pseudoCrcHalf (v : BitVec 16) : List Instr := [.crcByte (v.extractLsb' 8 8), .crcByte (v.extractLsb' 0 8)]

/-- `CKS_HALF v` (R99). -/
def pseudoCksHalf (v : BitVec 16) : List Instr := [.cksAdd (v.extractLsb' 8 8), .cksAdd (v.extractLsb' 0 8)]

/-- `W_BYTE b` (R99). -/
def pseudoWByte (b : Byte) : List Instr := [.wAppend 8 (b.setWidth 16)]

/-- The value of a bit string of at most 16 bits, first bit most significant. -/
def valueOfBits (s : Bits) : BitVec 16 := s.foldl (fun v b => v <<< 1 ||| (BitVec.ofBool b).setWidth 16) 0#16

/-- `W_BITS s`: one W_APPEND per 16-bit slice, first slice first (R99). The first argument bounds the number of slices. -/
def bitSlices : Nat → Bits → List Instr
  | 0, _ => []
  | fuel + 1, s =>
    if s = [] then [] else .wAppend (s.take 16).length (valueOfBits (s.take 16)) :: bitSlices fuel (s.drop 16)

/-- `W_BITS s` (R99). -/
def pseudoWBits (s : Bits) : List Instr := bitSlices s.length s

/-- `DRAWS r0, r1, …`: one DRAW each; the host waits for DRAW_FULL = 0 before each one (R99, R352). -/
def pseudoDraws (rs : List Word) : List ScriptLine := rs.map .draw

/-- The effect of a list of commands issued one after the other (R64). -/
def issue : List Instr → State → Result
  | [], s => .next s
  | i :: is, s =>
    match exec i s with
    | .next t => issue is t
    | .fault r => .fault r
    | .refused r => .refused r

end Sys2Proof.Machine
end

