-- ==== Sys2Proof/Safety.lean ====
section
/-! DEFINITION. What a safe run is, in the terms claims use: the invariants of the state, the frames and the checksum a run must
build from its source, the statistics' balance, and the bound on the steps a run has left. -/

namespace Sys2Proof.Machine

/-! What a run must build from its source (R171 to R173, R155, R179) -/

/-- The CRC of data frame `i` of the source `src` (R172). -/
def sourceCrc (src : Bits) (i : Nat) : BitVec 16 := crc16 (payload src i)

/-- The stored data frame `i` of the source `src` (R179). -/
def sourceFrame (src : Bits) (i : Nat) : Bits := stuffFrame (dataRaw (BitVec.ofNat 32 i) (payload src i) (sourceCrc src i))

/-- The checksum unit's sum over the CRCs of the first `n` data frames, each high byte first (R155). -/
def sourceSum (src : Bits) (n : Nat) : BitVec 8 :=
  cksSum ((List.range n).flatMap fun i => [(sourceCrc src i).extractLsb' 8 8, (sourceCrc src i).extractLsb' 0 8])

/-- The stored checksum-control frame of a run of `n` data frames (R179). -/
def sourceControlFrame (code : Byte) (src : Bits) (n : Nat) : Bits :=
  stuffFrame (ctrlRaw code (cksResult (sourceSum src n)))

/-! The invariants -/

/-- How many data frames the run has built so far. -/
def State.built (s : State) : Nat := min s.nframes.toNat s.ndata.toNat

/-- The storage keeps its bounds and canonical forms, and every slot a run has filled is listed (R8, R22 to R24, R26, R27, R29,
R111). -/
structure State.StorageInv (s : State) : Prop where
  cfgLegal : s.cfg.legal
  bitbufFits : s.bitbuf.length ≤ s.cfg.maxBits
  bitbufBytes : s.bitbuf.length % 8 = 0
  workFits : s.w.length ≤ frameCap
  fifoFits : s.evq.length ≤ s.cfg.evtDepth
  ndataFits : s.ndata.toNat ≤ s.cfg.maxDataFrames
  ftabCanonical : s.ftab.wf = true
  ctabCanonical : s.ctab.wf = true
  ftabSlots : ∀ p ∈ s.ftab, p.1 ≤ s.cfg.maxDataFrames ∧ p.2.length ≤ frameCap
  ctabSlots : ∀ p ∈ s.ctab, p.1 < s.cfg.maxDataFrames
  framesStored : ∀ i < s.nframes.toNat, (s.ftab.read i).isSome = true
  crcsStored : ∀ i < s.built, (s.ctab.read i).isSome = true
  drawLegal : s.drawFull = true → s.drawVal < 100#7
  errLatch : if s.err then 1#4 ≤ s.errcode ∧ s.errcode ≤ 9#4 else s.errcode = 0#4

/-- Every frame of the run is stored (R235). -/
abbrev State.allStored (s : State) : Prop := s.nframes.toNat = s.ndata.toNat + 1

/-- The sequencer's counters fit its phase (R21, R234 to R240, R250, R251). -/
def State.controlInv (s : State) : Prop :=
  match s.phase with
  | .idle => s.nframes.toNat ≤ s.ndata.toNat + 1
  | .build => s.nframes.toNat < s.ndata.toNat ∧ s.fidx = 0#17 ∧ s.att = 0#7
  | .cksum => s.nframes.toNat = s.ndata.toNat ∧ s.fidx = 0#17 ∧ s.att = 0#7
  | .send => s.allStored ∧ s.fidx ≤ s.ndata ∧ s.att < 100#7
  | .loss => s.allStored ∧ s.fidx < s.ndata ∧ 1#7 ≤ s.att ∧ s.att ≤ 100#7
  | .corr | .recv | .ack => s.allStored ∧ s.fidx ≤ s.ndata ∧ 1#7 ≤ s.att ∧ s.att ≤ 100#7
  | .summary | .finish => s.allStored ∧ s.fidx.toNat = s.ndata.toNat + 1 ∧ s.att = 0#7

/-- While a run is in progress, NDATA is the frame count of the source and DONE is 0 (R230, R112). -/
def State.runInv (s : State) : Prop :=
  s.busy = true → s.ndata.toNat = frameCount s.bitbuf.length ∧ s.done = false

/-- The invariant of the block: storage and control. -/
structure State.Inv (s : State) : Prop where
  storage : s.StorageInv
  control : s.controlInv
  run : s.runInv

/-- While a run is in progress, every frame built so far is the source's, CTAB holds the CRCs, CRC holds the last one (or 0xFFFF), and
once CKSUM is past, the control frame and SUM are those of the source's CRCs (R134, R135, R155, R179, R234, R235). -/
structure State.FramesInv (s : State) : Prop where
  frames : s.busy = true → ∀ i < s.built, s.ftab.read i = some (sourceFrame s.bitbuf i)
  crcs : s.busy = true → ∀ i < s.built, s.ctab.read i = some (sourceCrc s.bitbuf i)
  lastCrc : s.busy = true → s.crc = if s.built = 0 then crcInitial else sourceCrc s.bitbuf (s.built - 1)
  control : s.busy = true → s.allStored →
    s.ftab.read s.ndata.toNat = some (sourceControlFrame s.cfg.ctrlCode s.bitbuf s.ndata.toNat) ∧
      s.sum = sourceSum s.bitbuf s.ndata.toNat

/-- An attempt has been sent and its outcome is not decided yet. -/
def Phase.inFlight : Phase → Nat
  | .loss | .corr | .recv | .ack => 1
  | .idle | .build | .cksum | .send | .summary | .finish => 0

/-- An attempt has been sent and its corruption decision is not taken yet. -/
def Phase.beforeCorr : Phase → Nat
  | .loss | .corr => 1
  | .idle | .build | .cksum | .send | .recv | .ack | .summary | .finish => 0

/-- The statistics' balance at every point of a run and after it (R254, R25, R250 to R253). FIDX is the number of frames closed. -/
structure State.StatsInv (s : State) : Prop where
  frames : s.busy = true ∨ s.done = true → s.stats.frames.toNat = s.ndata.toNat + 1
  attemptsLow : s.fidx.toNat + s.att.toNat ≤ s.stats.attempts.toNat
  attemptsHigh : s.stats.attempts.toNat ≤ 100 * s.fidx.toNat + s.att.toNat
  losses : s.stats.lost.toNat + s.stats.ackLost.toNat + s.fidx.toNat + s.phase.inFlight =
    s.stats.attempts.toNat + s.stats.abandoned.toNat
  corruptions : s.stats.corrupt.toNat + s.stats.csCorrupt.toNat + s.stats.lost.toNat + s.phase.beforeCorr ≤
    s.stats.attempts.toNat
  csCorruptions : s.stats.csCorrupt.toNat + (if s.fidx = s.ndata then s.phase.beforeCorr else 0) ≤
    if s.fidx < s.ndata then 0 else if s.fidx = s.ndata then s.att.toNat else 100
  maxAtt : s.stats.maxAtt.toNat ≤ 100
  maxAttLow : s.fidx ≠ 0#17 → 1 ≤ s.stats.maxAtt.toNat
  maxFrame : s.stats.maxFrame.toNat ≤ s.ndata.toNat
  abandoned : s.stats.abandoned.toNat ≤ s.fidx.toNat
  capHit : s.caphit = true ↔ s.stats.abandoned ≠ 0#32
  ended : s.done = true → s.fidx.toNat = s.ndata.toNat + 1 ∧ s.att = 0#7

/-- A bound on the sequencer steps a run has left (R263): a data frame takes at most 100 attempts of 5 steps, the control frame at
most 100 of 4, and BUILD, CKSUM, SUMMARY and FINISH are counted one by one. -/
def State.stepsLeft (s : State) : Nat :=
  let n := s.ndata.toNat
  let f := s.fidx.toNat
  let tries := 100 - s.att.toNat
  let frame (steps : Nat) : Nat :=
    if f < n then 5 * tries + steps + 500 * (n - f - 1) + 400 + 2 else 4 * tries + steps + 2
  match s.phase with
  | .idle => 0
  | .build => (n - s.nframes.toNat) + 1 + 500 * n + 400 + 2
  | .cksum => 1 + 500 * n + 400 + 2
  | .send => frame 0
  | .loss => frame 4
  | .corr => frame 3
  | .recv => frame 2
  | .ack => frame 1
  | .summary => 2
  | .finish => 1

/-! The spec's loops, word for word (R174, R176) -/

/-- One round of stuffBody's loop, on `out` and `cnt` (R174). -/
def stuffRound (acc : Bits × Nat) (b : Bool) : Bits × Nat :=
  if b then if acc.2 + 1 = 5 then (acc.1 ++ [true] ++ [false], 0) else (acc.1 ++ [true], acc.2 + 1)
  else (acc.1 ++ [false], 0)

/-- stuffBody as R174's loop: `out <- []; cnt <- 0`, then one round per bit. -/
def stuffLoop (m : Bits) : Bits := (m.foldl stuffRound ([], 0)).1

/-- One round of unstuffBody's loop (R176): it has returned a verdict already, or goes on with `out` and `cnt`. -/
def unstuffRound (acc : Except Destuff (Bits × Nat)) (b : Bool) : Except Destuff (Bits × Nat) :=
  match acc with
  | .error e => .error e
  | .ok (out, cnt) =>
    if cnt = 5 then if b then .error .viol else .ok (out, 0) else .ok (out ++ [b], if b then cnt + 1 else 0)

/-- unstuffBody as R176's loop, with the check that follows it. -/
def unstuffLoop (y : Bits) : Except Destuff Bits :=
  match y.foldl unstuffRound (.ok ([], 0)) with
  | .error e => .error e
  | .ok (out, cnt) => if cnt = 5 then .error .trunc else .ok out

/-! What the next step is caused by -/

/-- The cause of a step: which of R64's transitions it performs, with the command a CMD write issues. -/
inductive Cause
  /-- A read of the register at an address. -/
  | read (a : PortAddr)
  /-- A write to CMD of the word of a command. -/
  | command (i : Instr)
  /-- A write to CMD of a word that is no command. -/
  | badCommand
  /-- A write to DRAW. -/
  | draw
  /-- A write to any other address. -/
  | ignoredWrite
  /-- An enabled step of the sequencer, in the given phase. -/
  | sequencer (p : Phase)
  /-- A sequencer step that is not enabled: nothing happens. -/
  | wait
  /-- Reset. -/
  | reset
  deriving DecidableEq, Repr

/-- The sequencer's part of `State.cause`. -/
def State.sequencerCause (s : State) : Cause := if s.enabled then .sequencer s.phase else .wait

/-- What the next step of `s` is caused by. -/
def State.cause (s : State) : Cause :=
  match s.sched with
  | [] => s.sequencerCause
  | .sequencer :: _ => s.sequencerCause
  | .reset _ :: _ => .reset
  | .host (.read a) :: _ => .read a
  | .host (.write a v) :: _ =>
    if a = 0#6 then
      match decode v with
      | .ok i => .command i
      | .error _ => .badCommand
    else if a = 2#6 then .draw
    else .ignoredWrite

/-! The attempts of each frame (R254) -/

/-- attempts(f) of R254 after the next step of `s`, where `n` is attempts(f) before it: how often the run has taken its SEND step with
FIDX = f. An accepted RUN and reset start the count again. -/
def State.attemptsAfter (s : State) (n : Nat → Nat) : Nat → Nat :=
  if s.cause = .sequencer .send then fun f => if f = s.fidx.toNat then n f + 1 else n f
  else if s.cause = .reset ∨ (s.cause = .command .run ∧ s.busy = false ∧ s.err = false) then fun _ => 0
  else n

/-- The statistics against the attempts of each frame, at every point of a run and after it: FIDX frames are closed, ATT is the frame in
flight's count, STAT_ATTEMPTS is the sum, STAT_MAXATT the maximum over the closed frames and STAT_MAXFRAME the least one that attains
it, and the control frame is corrupted at most once an attempt (R236, R238, R250, R251, R254). -/
structure State.AttemptsInv (s : State) (n : Nat → Nat) : Prop where
  closed : ∀ f < s.fidx.toNat, 1 ≤ n f ∧ n f ≤ 100
  inFlight : n s.fidx.toNat = s.att.toNat
  later : ∀ f, s.fidx.toNat < f → n f = 0
  total : s.stats.attempts.toNat = ((List.range (s.fidx.toNat + 1)).map n).sum
  maxAtt : ∀ f < s.fidx.toNat, n f ≤ s.stats.maxAtt.toNat
  maxFrame : if s.fidx = 0#17 then s.stats.maxAtt = 0#32 else
    s.stats.maxFrame.toNat < s.fidx.toNat ∧ n s.stats.maxFrame.toNat = s.stats.maxAtt.toNat ∧
      ∀ f < s.stats.maxFrame.toNat, n f < s.stats.maxAtt.toNat
  csCorruptions : s.stats.csCorrupt.toNat + (if s.fidx = s.ndata then s.phase.beforeCorr else 0) ≤ n s.ndata.toNat

/-! What the host cannot see -/

/-- `t` is `s` but for the free values' argument and, while the draw slot is empty, the value left in it: the contents R340 calls
unspecified and unobservable. -/
def State.sameVisible (s t : State) : Prop :=
  t = { s with resets := t.resets, drawVal := t.drawVal } ∧ (s.drawFull = true → t.drawVal = s.drawVal)

/-! The written form of a command's operands (R97) -/

/-- The operands of a command, as the assembler writes them. -/
def operandsOf : Instr → List Nat
  | .loadb b | .crcByte b | .cksAdd b => [b.toNat]
  | .crcBit b => [b.toNat]
  | .wAppend n v => [n, v.toNat]
  | .frameLoad i => [i.toNat]
  | .nop | .clrErr | .srcClear | .run | .crcInit | .cksInit | .wClear | .stuff | .unstuff => []

end Sys2Proof.Machine
end

