-- ==== Sys2Proof/Certificates/Slice0/Obligations.lean ====
section
/-! DEFINITION. The statements for the provers, from the spec's numbered rules. -/

open Sys2Proof Sys2Proof.Machine

/-! ## Encoding -/

/-- Words written out from the encodings of R82 and R83 decode to the commands they stand for, one of each family. -/
def Obligations.SampleWordsDecode : Prop :=
  decode 0x00000000#32 = .ok .nop ∧ decode 0x01000000#32 = .ok .clrErr ∧ decode 0x11000041#32 = .ok (.loadb 0x41#8) ∧
    decode 0x12000000#32 = .ok .run ∧ decode 0x21000001#32 = .ok (.crcBit true) ∧
    decode 0x310000CE#32 = .ok (.cksAdd 0xCE#8) ∧ decode 0x4107007E#32 = .ok (.wAppend 8 0x007E#16) ∧
    decode 0x410FABCD#32 = .ok (.wAppend 16 0xABCD#16) ∧ decode 0x44000001#32 = .ok (.frameLoad 1#16) ∧
    decode 0x02000000#32 = .error .badCmd ∧ decode 0x21000002#32 = .error .badArg

/-- Decoding the word of any command, with its operands at any value the encoding admits, gives the command back (R80, R82, R83,
R97). -/
def Obligations.DecodeOfEncodeIsIdentity : Prop :=
  ∀ i : Instr, i.wellFormed = true → decode (encode i) = .ok i

/-- A word that decodes is the word of the command it decodes to, and of no other: no two words mean the same command (R82, R83). -/
def Obligations.EncodeOfDecodeIsIdentity : Prop :=
  ∀ (v : Word) (i : Instr), decode v = .ok i → i.wellFormed = true ∧ encode i = v

/-- R84: the 241 unassigned values of OPC, and the words with a reserved operand bit set, are illegal: issued while no run is in
progress they raise BAD_CMD and BAD_ARG, and do nothing else. The masks are R82's. -/
def Obligations.IllegalWordsRaiseAndDoNothingElse : Prop :=
  (((List.range 256).filter fun n =>
      (0x02 ≤ n ∧ n ≤ 0x0F) ∨ (0x13 ≤ n ∧ n ≤ 0x1F) ∨ (0x23 ≤ n ∧ n ≤ 0x2F) ∨ (0x32 ≤ n ∧ n ≤ 0x3F) ∨ 0x45 ≤ n).length = 241) ∧
  ∀ (v : Word) (s : State), s.busy = false →
    let opc := v.toNat / 2 ^ 24
    let opnd := v.toNat % 2 ^ 24
    let unassigned := (0x02 ≤ opc ∧ opc ≤ 0x0F) ∨ (0x13 ≤ opc ∧ opc ≤ 0x1F) ∨ (0x23 ≤ opc ∧ opc ≤ 0x2F) ∨
      (0x32 ≤ opc ∧ opc ≤ 0x3F) ∨ 0x45 ≤ opc
    let reservedSet := (opc ∈ [0x00, 0x01, 0x10, 0x12, 0x20, 0x30, 0x40, 0x42, 0x43] ∧ opnd ≠ 0) ∨
      (opc ∈ [0x11, 0x22, 0x31] ∧ opnd / 2 ^ 8 ≠ 0) ∨ (opc = 0x21 ∧ opnd / 2 ≠ 0) ∨ (opc = 0x41 ∧ opnd / 2 ^ 20 ≠ 0) ∨
      (opc = 0x44 ∧ opnd / 2 ^ 16 ≠ 0)
    (unassigned → commandWrite v s = .next (raiseError .badCmd s)) ∧
      (reservedSet → commandWrite v s = .next (raiseError .badArg s)) ∧
      (¬ unassigned → ¬ reservedSet → ∃ i, decode v = .ok i)

/-- R81: the order of the checks of a CMD write, the first that fails deciding the outcome, and then the command's own rule. The
table and the masks are the numbers of R83 and R82. -/
def Obligations.CommandChecksInOrder : Prop :=
  ∀ (v : Word) (s : State),
    let opc := v.extractLsb' 24 8
    let opnd := v.extractLsb' 0 24
    let mask : Option (BitVec 24) :=
      if opc ∈ [0x00#8, 0x01#8, 0x10#8, 0x12#8, 0x20#8, 0x30#8, 0x40#8, 0x42#8, 0x43#8] then some 0xFFFFFF#24
      else if opc ∈ [0x11#8, 0x22#8, 0x31#8] then some 0xFFFF00#24
      else if opc = 0x21#8 then some 0xFFFFFE#24
      else if opc = 0x41#8 then some 0xF00000#24
      else if opc = 0x44#8 then some 0xFF0000#24
      else none
    if s.busy = true ∧ opc ∉ [0x00#8, 0x01#8] then commandWrite v s = .next (raiseError .busy s)
    else
      match mask with
      | none => commandWrite v s = .next (raiseError .badCmd s)
      | some m =>
        if opnd &&& m ≠ 0#24 then commandWrite v s = .next (raiseError .badArg s)
        else ∃ i, decode v = .ok i ∧ commandWrite v s = exec i s

/-! ## The step and the port -/

/-- A step whose next transition writes the word of a command to CMD is that command's meaning, on the state with the write taken
off the schedule. -/
def Obligations.StepRunsDecodedCommand : Prop :=
  ∀ (s : State) (v : Word) (i : Instr) (rest : List Transition), decode v = .ok i →
    (s.sched = .host (.write 0#6 v) :: rest → step s = exec i { s with sched := rest }) ∧
      step (s.withFetchWord 32 v.toNat) = exec i s

/-- What a step does for every other transition at the head of the schedule, and for an empty schedule (R64, R231, R340): the
empty schedule, and what a step that is not enabled does, are the model's choice (log 2). -/
def Obligations.StepPerformsScheduledTransition : Prop :=
  ∀ (s : State) (rest : List Transition),
    let u : State := { s with sched := rest }
    (s.sched = [] → step s = .next (sequencerStep s)) ∧
      (s.sched = .sequencer :: rest → step s = .next (sequencerStep u)) ∧
      (∀ a, s.sched = .host (.read a) :: rest → step s = .next (busRead a u)) ∧
      (∀ a v, s.sched = .host (.write a v) :: rest → step s = busWrite a v u) ∧
      (∀ d, s.sched = .reset d :: rest → step s = .next (resetBlock d u)) ∧
      (s.enabled = false → sequencerStep s = s)

/-- The machine never stops: every state has a next state. Nothing in the block is a fault; every misuse of the port latches an
error code or stalls (93_implementation_defined.md, section 2; R300). -/
def Obligations.StepNeverStops : Prop :=
  ∀ s : State, ∃ t, step s = .next t

/-- R62: a write to CMD issues a command, a write to DRAW offers a draw, and a write to any other address is ignored. -/
def Obligations.PortWritesActOnlyAtCmdAndDraw : Prop :=
  ∀ (a : PortAddr) (v : Word) (s : State),
    (a = 0#6 → hostAccess (.write a v) s = commandWrite v s) ∧ (a = 2#6 → hostAccess (.write a v) s = drawWrite v s) ∧
      (a ≠ 0#6 → a ≠ 2#6 → hostAccess (.write a v) s = .next s)

/-- R63: a read of EVT_DATA returns and pops the oldest word, or returns 0 from an empty FIFO; a read of any other address gives the
host that address's `readWord` and changes nothing in the block (R61, R67). What `readWord` is stands in the three statements that
follow. -/
def Obligations.OnlyEventDataReadPops : Prop :=
  ∀ (s : State) (a : PortAddr),
    (∀ w q, s.evq = w :: q → hostAccess (.read 3#6) s = .next { s with rdata := w, evq := q }) ∧
      (s.evq = [] → hostAccess (.read 3#6) s = .next { s with rdata := 0#32 }) ∧
      (a ≠ 3#6 → hostAccess (.read a) s = .next { s with rdata := readWord a s })

/-- R30: what a read of each address of the register map returns, in every state, and after reset. STATUS and W_WORD have statements
of their own. -/
def Obligations.RegisterMapReads : Prop :=
  (∀ s : State,
    readWord 0 s = 0#32 ∧ readWord 1 s = s.status ∧ readWord 2 s = 0#32 ∧ readWord 4 s = BitVec.ofNat 32 s.evq.length ∧
      readWord 5 s = BitVec.ofNat 32 s.bitbuf.length ∧ readWord 6 s = s.nframes ∧
      readWord 7 s = BitVec.ofNat 32 s.crc.toNat ∧ readWord 8 s = BitVec.ofNat 32 s.sum.toNat ∧
      readWord 9 s = BitVec.ofNat 32 (255 - s.sum.toNat) ∧ readWord 10 s = BitVec.ofNat 32 (s.sum.toNat + 1) ∧
      readWord 11 s = BitVec.ofNat 32 s.w.length ∧ readWord 16 s = s.stats.frames ∧ readWord 17 s = s.stats.attempts ∧
      readWord 18 s = s.stats.lost ∧ readWord 19 s = s.stats.corrupt ∧ readWord 20 s = s.stats.ackLost ∧
      readWord 21 s = s.stats.csCorrupt ∧ readWord 22 s = s.stats.maxFrame ∧ readWord 23 s = s.stats.maxAtt ∧
      readWord 24 s = s.stats.abandoned) ∧
  (∀ (s : State) (a : PortAddr),
    (12 ≤ a.toNat ∧ a.toNat ≤ 15) ∨ (25 ≤ a.toNat ∧ a.toNat ≤ 31) ∨ 40 ≤ a.toNat → readWord a s = 0#32) ∧
  ∀ a : PortAddr, readWord a State.reset = if a = 7 then 0x0000FFFF#32 else if a = 9 then 0x000000FF#32 else
    if a = 10 then 0x00000001#32 else 0#32

/-- R29, R28: every bit of a read of STATUS, with the ten phase codes as numbers. The two views are computed from the state: DRAW_WAIT
while LOSS, CORR or ACK has no draw, EVT_STALL while the phase's step lacks room. -/
def Obligations.StatusFields : Prop :=
  ∀ s : State,
    let v := readWord 1 s
    let code := v.extractLsb' 12 4
    let need : Nat := if s.phase = .cksum ∨ s.phase = .finish then 1 else if s.phase = .summary then 9 else 2
    v.getLsbD 0 = decide (s.phase ≠ .idle) ∧ v.getLsbD 1 = s.done ∧ v.getLsbD 2 = s.err ∧ v.getLsbD 3 = s.caphit ∧
      v.getLsbD 4 = s.drawFull ∧
      v.getLsbD 5 = (decide (s.phase = .loss ∨ s.phase = .corr ∨ s.phase = .ack) && !s.drawFull) ∧
      v.getLsbD 6 = (decide (s.phase ≠ .idle) && decide (s.cfg.evtDepth < s.evq.length + need)) ∧
      v.getLsbD 7 = false ∧ v.extractLsb' 8 4 = s.errcode ∧ v.extractLsb' 16 16 = 0#16 ∧
      (s.phase = .idle → code = 0#4) ∧ (s.phase = .build → code = 1#4) ∧ (s.phase = .cksum → code = 2#4) ∧
      (s.phase = .send → code = 3#4) ∧ (s.phase = .loss → code = 4#4) ∧ (s.phase = .corr → code = 5#4) ∧
      (s.phase = .recv → code = 6#4) ∧ (s.phase = .ack → code = 7#4) ∧ (s.phase = .summary → code = 8#4) ∧
      (s.phase = .finish → code = 9#4)

/-- R31: W_WORDk bit 31 − j is W[32k + j] if 32k + j < WLEN, and 0 otherwise. -/
def Obligations.WorkBufferReadout : Prop :=
  ∀ (s : State) (k j : Nat), k < 8 → j < 32 →
    (readWord (BitVec.ofNat 6 (32 + k)) s).getLsbD (31 - j) =
      if h : 32 * k + j < s.w.length then s.w[32 * k + j] else false

/-! ## Errors -/

/-- R302: the error latch. `raise Error(c)` latches the first error only; an access that raises one changes nothing else; ERR and
ERRCODE stay until CLR_ERR or reset; a run in progress does not look at them; and of the commands only RUN does. The nine codes are
R300's numbers. -/
def Obligations.ErrorLatchIsPreciseStickyFirstWins : Prop :=
  (ErrorCause.busy.code = 1#4 ∧ ErrorCause.badCmd.code = 2#4 ∧ ErrorCause.badArg.code = 3#4 ∧ ErrorCause.overflow.code = 4#4 ∧
    ErrorCause.wlenErr.code = 5#4 ∧ ErrorCause.unstuffViol.code = 6#4 ∧ ErrorCause.unstuffTrunc.code = 7#4 ∧
    ErrorCause.drawRange.code = 8#4 ∧ ErrorCause.drawOvf.code = 9#4) ∧
  (∀ c (s : State), (s.err = false → raiseError c s = { s with err := true, errcode := c.code }) ∧
    (s.err = true → raiseError c s = s)) ∧
  (∀ s t : State, step s = .next t → s.err = false → t.err = true →
    ∃ a v rest c, s.sched = .host (.write a v) :: rest ∧ t = raiseError c { s with sched := rest }) ∧
  (∀ s t : State, step s = .next t → s.err = true →
    (t.err = true ∧ t.errcode = s.errcode) ∨ s.cause = .command .clrErr ∨ s.cause = .reset) ∧
  (∀ (s : State) e c, sequencerStep { s with err := e, errcode := c } = { sequencerStep s with err := e, errcode := c }) ∧
  (∀ (i : Instr) (s t : State) c, i ≠ .run → i ≠ .clrErr → s.err = false → exec i s = .next t → t.err = false →
    exec i { s with err := true, errcode := c } = .next { t with err := true, errcode := c }) ∧
  ∀ s : State, s.busy = false → s.err = true → exec .run s = .next s

/-- R350: while a run is in progress every command except NOP and CLR_ERR is refused with Error(BUSY) and has no effect, whatever the
word; reads and DRAW writes stay allowed. -/
def Obligations.BusyBlocksCommands : Prop :=
  ∀ s : State, s.busy = true →
    (∀ i : Instr, i ≠ .nop → i ≠ .clrErr → exec i s = .next (raiseError .busy s)) ∧
      (∀ v : Word, 2 ^ 25 ≤ v.toNat → commandWrite v s = .next (raiseError .busy s)) ∧
      (∀ a, hostAccess (.read a) s = .next { s with rdata := readWord a s, evq := if a = 3#6 then s.evq.tail else s.evq }) ∧
      ∀ v : Word, s.drawFull = false → v.toNat % 256 < 100 →
        hostAccess (.write 2#6 v) s = .next { s with drawVal := BitVec.ofNat 7 (v.toNat % 256), drawFull := true }

/-! ## Commands: encoding, errors, effect and frame (each effect is an equation of states, so what it does not name is unchanged) -/

/-- R290, R291: NOP changes nothing; CLR_ERR clears ERR and ERRCODE and nothing else; both in every state, a run in progress or not;
with an operand bit set they raise BAD_ARG. -/
def Obligations.ControlCommands : Prop :=
  decode 0x00000000#32 = .ok .nop ∧ decode 0x01000000#32 = .ok .clrErr ∧
  (∀ s : State, exec .nop s = .next s ∧ exec .clrErr s = .next { s with err := false, errcode := 0#4 }) ∧
  ∀ (v : Word) (s : State), v.toNat / 2 ^ 24 ≤ 1 → v.toNat % 2 ^ 24 ≠ 0 → commandWrite v s = .next (raiseError .badArg s)

/-- R110, R111: SRC_CLEAR empties the bit buffer; LOADB appends its byte's eight bits, most significant first, or raises OVERFLOW when
they do not fit. -/
def Obligations.BitSourceCommands : Prop :=
  decode 0x10000000#32 = .ok .srcClear ∧ (∀ b : Byte, decode (BitVec.ofNat 32 (0x11000000 + b.toNat)) = .ok (.loadb b)) ∧
  (∀ (v : Word) (s : State), s.busy = false →
    (v.toNat / 2 ^ 24 = 0x10 ∧ v.toNat % 2 ^ 24 ≠ 0) ∨ (v.toNat / 2 ^ 24 = 0x11 ∧ v.toNat % 2 ^ 24 / 2 ^ 8 ≠ 0) →
    commandWrite v s = .next (raiseError .badArg s)) ∧
  (∀ (s : State) (b : Byte), s.busy = true →
    exec .srcClear s = .next (raiseError .busy s) ∧ exec (.loadb b) s = .next (raiseError .busy s)) ∧
  ∀ (s : State) (b : Byte), s.busy = false →
    exec .srcClear s = .next { s with bitbuf := [] } ∧
      (s.bitbuf.length + 8 > 100 * s.cfg.maxDataFrames → exec (.loadb b) s = .next (raiseError .overflow s)) ∧
      (s.bitbuf.length + 8 ≤ 100 * s.cfg.maxDataFrames →
        exec (.loadb b) s = .next { s with bitbuf := s.bitbuf ++
          [b.getLsbD 7, b.getLsbD 6, b.getLsbD 5, b.getLsbD 4, b.getLsbD 3, b.getLsbD 2, b.getLsbD 1, b.getLsbD 0] })

/-- R131, R132, R133: CRC_INIT loads 0xFFFF; CRC_BIT makes one step of R130, on the register read as a number; CRC_BYTE makes eight,
BYTE[7] first, as eight CRC_BITs would. -/
def Obligations.CrcCommands : Prop :=
  decode 0x20000000#32 = .ok .crcInit ∧ decode 0x21000000#32 = .ok (.crcBit false) ∧ decode 0x21000001#32 = .ok (.crcBit true) ∧
  (∀ b : Byte, decode (BitVec.ofNat 32 (0x22000000 + b.toNat)) = .ok (.crcByte b)) ∧
  (∀ (v : Word) (s : State), s.busy = false →
    (v.toNat / 2 ^ 24 = 0x20 ∧ v.toNat % 2 ^ 24 ≠ 0) ∨ (v.toNat / 2 ^ 24 = 0x21 ∧ v.toNat % 2 ^ 24 / 2 ≠ 0) ∨
      (v.toNat / 2 ^ 24 = 0x22 ∧ v.toNat % 2 ^ 24 / 2 ^ 8 ≠ 0) →
    commandWrite v s = .next (raiseError .badArg s)) ∧
  (∀ (s : State) x (b : Byte), s.busy = true →
    exec .crcInit s = .next (raiseError .busy s) ∧ exec (.crcBit x) s = .next (raiseError .busy s) ∧
      exec (.crcByte b) s = .next (raiseError .busy s)) ∧
  ∀ (s : State) (x : Bool) (b : Byte), s.busy = false →
    let bit (c : BitVec 16) (x : Bool) : BitVec 16 :=
      let shifted := BitVec.ofNat 16 (2 * c.toNat)
      if (decide (0x8000 ≤ c.toNat) != x) = true then shifted ^^^ 0x1021#16 else shifted
    let high := bit (bit (bit (bit s.crc (b.getLsbD 7)) (b.getLsbD 6)) (b.getLsbD 5)) (b.getLsbD 4)
    let low := bit (bit (bit (bit high (b.getLsbD 3)) (b.getLsbD 2)) (b.getLsbD 1)) (b.getLsbD 0)
    exec .crcInit s = .next { s with crc := 0xFFFF#16 } ∧ exec (.crcBit x) s = .next { s with crc := bit s.crc x } ∧
      exec (.crcByte b) s = .next { s with crc := low }

/-- R151, R152: CKS_INIT clears the running sum; CKS_ADD adds a byte with end-around carry (R150's step, on numbers). -/
def Obligations.ChecksumCommands : Prop :=
  decode 0x30000000#32 = .ok .cksInit ∧ (∀ b : Byte, decode (BitVec.ofNat 32 (0x31000000 + b.toNat)) = .ok (.cksAdd b)) ∧
  (∀ (v : Word) (s : State), s.busy = false →
    (v.toNat / 2 ^ 24 = 0x30 ∧ v.toNat % 2 ^ 24 ≠ 0) ∨ (v.toNat / 2 ^ 24 = 0x31 ∧ v.toNat % 2 ^ 24 / 2 ^ 8 ≠ 0) →
    commandWrite v s = .next (raiseError .badArg s)) ∧
  (∀ (s : State) (b : Byte), s.busy = true →
    exec .cksInit s = .next (raiseError .busy s) ∧ exec (.cksAdd b) s = .next (raiseError .busy s)) ∧
  ∀ (s : State) (b : Byte), s.busy = false →
    exec .cksInit s = .next { s with sum := 0#8 } ∧
      ∃ t : BitVec 8, exec (.cksAdd b) s = .next { s with sum := t } ∧
        t.toNat = if s.sum.toNat + b.toNat > 255 then (s.sum.toNat + b.toNat) % 256 + 1 else s.sum.toNat + b.toNat

/-- R180, R181: W_CLEAR empties the work buffer; W_APPEND n, val appends val's low n bits, the one of weight n−1 first, and none of the
bits above, or raises WLEN_ERR when they do not fit. -/
def Obligations.WorkBufferCommands : Prop :=
  decode 0x40000000#32 = .ok .wClear ∧
  (∀ (n : Nat) (v : BitVec 16), 1 ≤ n → n ≤ 16 →
    decode (BitVec.ofNat 32 (0x41000000 + (n - 1) * 2 ^ 16 + v.toNat)) = .ok (.wAppend n v)) ∧
  (∀ (v : Word) (s : State), s.busy = false →
    (v.toNat / 2 ^ 24 = 0x40 ∧ v.toNat % 2 ^ 24 ≠ 0) ∨ (v.toNat / 2 ^ 24 = 0x41 ∧ v.toNat % 2 ^ 24 / 2 ^ 20 ≠ 0) →
    commandWrite v s = .next (raiseError .badArg s)) ∧
  (∀ (s : State) n v, s.busy = true →
    exec .wClear s = .next (raiseError .busy s) ∧ exec (.wAppend n v) s = .next (raiseError .busy s)) ∧
  ∀ (s : State) (n : Nat) (v : BitVec 16), s.busy = false → 1 ≤ n → n ≤ 16 →
    exec .wClear s = .next { s with w := [] } ∧
      (s.w.length + n > 256 → exec (.wAppend n v) s = .next (raiseError .wlenErr s)) ∧
      (s.w.length + n ≤ 256 →
        exec (.wAppend n v) s = .next { s with w := s.w ++ (List.range n).map (fun k => v.getLsbD (n - 1 - k)) })

/-- R182: STUFF stuffs the bits strictly between the first 8 and the last 8 of W, whatever those hold (R175), or raises BAD_ARG under 16
bits and WLEN_ERR when the result passes 256. -/
def Obligations.StuffCommand : Prop :=
  decode 0x42000000#32 = .ok .stuff ∧
  (∀ (v : Word) (s : State), s.busy = false → v.toNat / 2 ^ 24 = 0x42 → v.toNat % 2 ^ 24 ≠ 0 →
    commandWrite v s = .next (raiseError .badArg s)) ∧
  (∀ s : State, s.busy = true → exec .stuff s = .next (raiseError .busy s)) ∧
  (∀ s : State, s.busy = false → s.w.length < 16 → exec .stuff s = .next (raiseError .badArg s)) ∧
  ∀ (s : State) (head body tail : Bits), s.busy = false → s.w = head ++ body ++ tail → head.length = 8 → tail.length = 8 →
    (16 + (stuffBody body).length > 256 → exec .stuff s = .next (raiseError .wlenErr s)) ∧
      (16 + (stuffBody body).length ≤ 256 → exec .stuff s = .next { s with w := head ++ stuffBody body ++ tail })

/-- R183: UNSTUFF destuffs the bits strictly between the first 8 and the last 8 of W (R177), or raises BAD_ARG under 16 bits and
UNSTUFF_VIOL or UNSTUFF_TRUNC by the verdict of R176. -/
def Obligations.UnstuffCommand : Prop :=
  decode 0x43000000#32 = .ok .unstuff ∧
  (∀ (v : Word) (s : State), s.busy = false → v.toNat / 2 ^ 24 = 0x43 → v.toNat % 2 ^ 24 ≠ 0 →
    commandWrite v s = .next (raiseError .badArg s)) ∧
  (∀ s : State, s.busy = true → exec .unstuff s = .next (raiseError .busy s)) ∧
  (∀ s : State, s.busy = false → s.w.length < 16 → exec .unstuff s = .next (raiseError .badArg s)) ∧
  ∀ (s : State) (head body tail : Bits), s.busy = false → s.w = head ++ body ++ tail → head.length = 8 → tail.length = 8 →
    (∀ m, unstuffBody body = .ok m → exec .unstuff s = .next { s with w := head ++ m ++ tail }) ∧
      (unstuffBody body = .error .viol → exec .unstuff s = .next (raiseError .unstuffViol s)) ∧
      (unstuffBody body = .error .trunc → exec .unstuff s = .next (raiseError .unstuffTrunc s))

/-- R184: FRAME_LOAD copies FTAB[IDX] into W and leaves FTAB alone, or raises BAD_ARG for an index not below NFRAMES. -/
def Obligations.FrameLoadCommand : Prop :=
  (∀ k : BitVec 16, decode (BitVec.ofNat 32 (0x44000000 + k.toNat)) = .ok (.frameLoad k)) ∧
  (∀ (v : Word) (s : State), s.busy = false → v.toNat / 2 ^ 24 = 0x44 → v.toNat % 2 ^ 24 / 2 ^ 16 ≠ 0 →
    commandWrite v s = .next (raiseError .badArg s)) ∧
  (∀ (s : State) k, s.busy = true → exec (.frameLoad k) s = .next (raiseError .busy s)) ∧
  ∀ (s : State) (k : BitVec 16), s.busy = false →
    (s.nframes.toNat ≤ k.toNat → exec (.frameLoad k) s = .next (raiseError .badArg s)) ∧
      (k.toNat < s.nframes.toNat →
        (∃ f, exec (.frameLoad k) s = .next { s with w := f }) ∧
          ∀ f, s.ftab.read k.toNat = some f → exec (.frameLoad k) s = .next { s with w := f })

/-- R230: RUN starts a run over the loaded bytes: NDATA is the frame count, every run-derived register is cleared and the phase is
BUILD, or CKSUM for an empty source. With ERR = 1 it does nothing. The premise is the storage invariant (StepKeepsInvariant). -/
def Obligations.RunCommand : Prop :=
  decode 0x12000000#32 = .ok .run ∧
  (∀ (v : Word) (s : State), s.busy = false → v.toNat / 2 ^ 24 = 0x12 → v.toNat % 2 ^ 24 ≠ 0 →
    commandWrite v s = .next (raiseError .badArg s)) ∧
  (∀ s : State, s.busy = true → exec .run s = .next (raiseError .busy s)) ∧
  (∀ s : State, s.busy = false → s.err = true → exec .run s = .next s) ∧
  ∀ s : State, s.StorageInv → s.busy = false → s.err = false →
    let n := (s.bitbuf.length + 99) / 100
    n ≤ s.cfg.maxDataFrames ∧
      exec .run s = .next
        { s with
          ndata := BitVec.ofNat 17 n
          stats := { frames := BitVec.ofNat 32 (n + 1), attempts := 0, lost := 0, corrupt := 0, ackLost := 0, csCorrupt := 0,
                     maxFrame := 0, maxAtt := 0, abandoned := 0 }
          caphit := false, done := false, drawFull := false, nframes := 0, crc := 0xFFFF#16, sum := 0, fidx := 0, att := 0
          phase := if s.bitbuf = [] then .cksum else .build }

/-! ## The CRC, the checksum, the framer -/

/-- The CRC of a sequence is R130's step on numbers, folded over its bits from 0xFFFF; and what R134 and R136 derive from that: its value
on the empty sequence, feeding in pieces, the residue, and the CRC of an all-zero 100-bit payload. -/
def Obligations.CrcLaws : Prop :=
  (∀ (c : BitVec 16) (b : Bool) (s : Bits),
    let shifted := BitVec.ofNat 16 (2 * c.toNat)
    crcFrom c (b :: s) = crcFrom (if (decide (0x8000 ≤ c.toNat) != b) = true then shifted ^^^ 0x1021#16 else shifted) s ∧
      crcFrom c [] = c) ∧
  crc16 (zeros 100) = 0xCE98#16 ∧ crc16 [] = 0xFFFF#16 ∧ (∀ s t : Bits, crc16 (s ++ t) = crcFrom (crc16 s) t) ∧
    ∀ s : Bits, crc16 (s ++ bitsMSB (crc16 s) 16) = 0x0000#16

/-- The one's-complement identity that R154 derives from R150, for every byte sequence, the empty one too. With it the closed form of
R150's sum: 0 for no weight at all, and otherwise the residue of the exact sum modulo 255, taken in 1 … 255. -/
def Obligations.ChecksumLaws : Prop :=
  (∀ bs : List Byte, (cksSum bs).toNat + (cksResult (cksSum bs)).toNat = 0xFF) ∧
    ∀ bs : List Byte,
      let total := (bs.map BitVec.toNat).sum
      (cksSum bs).toNat = if total = 0 then 0 else (total - 1) % 255 + 1

/-- R174, R176: the stuffer and the destuffer are the spec's loops, bit by bit, with their verdicts. -/
def Obligations.StufferAndDestufferAreTheLoops : Prop :=
  (∀ m : Bits, stuffBody m = stuffLoop m) ∧ ∀ y : Bits, unstuffBody y = unstuffLoop y

/-- R178, law 1: destuffing undoes stuffing, of every body and of every frame of at least 16 bits. -/
def Obligations.UnstuffInvertsStuff : Prop :=
  (∀ m : Bits, unstuffBody (stuffBody m) = .ok m) ∧
    ∀ f : Bits, 16 ≤ f.length → unstuffFrame (stuffFrame f) = .ok f

/-- R178, law 2: a stuffed body never holds six 1s in a row. -/
def Obligations.StuffedBodyHasNoSixOnes : Prop :=
  ∀ m : Bits, ¬ [true, true, true, true, true, true] <:+: stuffBody m

/-- R178, law 3: in a stuffed frame whose first and last 8 bits are 0x7E the flag pattern occurs at bit 0 and at bit |f|−8 only. -/
def Obligations.FlagOnlyAtFrameEnds : Prop :=
  ∀ m : Bits,
    let flag : Bits := [false, true, true, true, true, true, true, false]
    let f := stuffFrame (flag ++ m ++ flag)
    ∀ k : Nat, (f.drop k).take 8 = flag ↔ k = 0 ∨ k = f.length - 8

/-- R178, law 4: what destuffs is the stuffing of what it destuffs to, so the valid stuffed bodies are exactly the images of the
stuffer. -/
def Obligations.UnstuffAcceptsOnlyStuffedBodies : Prop :=
  ∀ y : Bits, (∀ u, unstuffBody y = .ok u → stuffBody u = y) ∧ ((∃ u, unstuffBody y = .ok u) ↔ ∃ m, y = stuffBody m)

/-- R178, laws 5 and 6: the length of a stuffed body, of a stuffed data frame and of a stuffed checksum-control frame. -/
def Obligations.StuffedLengths : Prop :=
  (∀ m : Bits, m.length ≤ (stuffBody m).length ∧ (stuffBody m).length ≤ m.length + m.length / 5) ∧
  (∀ (i : Word) (src : Bits) (k : Nat),
    let f := stuffFrame (dataRaw i (payload src k) (crc16 (payload src k)))
    164 ≤ f.length ∧ f.length ≤ 193) ∧
  ∀ code ck : Byte, 48 ≤ (stuffFrame (ctrlRaw code ck)).length ∧ (stuffFrame (ctrlRaw code ck)).length ≤ 54

/-- R171, R172, R173: the payload bit by bit, and the two raw frames field by field: each field MSB first at its place. -/
def Obligations.FrameLayout : Prop :=
  (∀ (src : Bits) (i : Nat), (payload src i).length = 100 ∧
    ∀ k, k < 100 → (payload src i)[k]? = some ((src[100 * i + k]?).getD false)) ∧
  (∀ (i : Word) (p : Bits), p.length = 100 →
    let field (v n : Nat) : Bits := (List.range n).map fun k => v.testBit (n - 1 - k)
    let f := dataRaw i p (crc16 p)
    f.length = 164 ∧ f.take 8 = field 0x7E 8 ∧ (f.drop 8).take 8 = field 0x01 8 ∧ (f.drop 16).take 8 = field 0x02 8 ∧
      (f.drop 24).take 16 = field i.toNat 16 ∧ (f.drop 40).take 100 = p ∧
      (f.drop 140).take 16 = field (crc16 p).toNat 16 ∧ f.drop 156 = field 0x7E 8) ∧
  ∀ code ck : Byte,
    let field (v n : Nat) : Bits := (List.range n).map fun k => v.testBit (n - 1 - k)
    let f := ctrlRaw code ck
    f.length = 48 ∧ f.take 8 = field 0x7E 8 ∧ (f.drop 8).take 8 = field 0x01 8 ∧ (f.drop 16).take 8 = field 0x02 8 ∧
      (f.drop 24).take 8 = field code.toNat 8 ∧ (f.drop 32).take 8 = field ck.toNat 8 ∧ f.drop 40 = field 0x7E 8

/-- R183's corner case: UNSTUFF after a STUFF that was performed restores W, and with it the whole state. -/
def Obligations.UnstuffCommandUndoesStuffCommand : Prop :=
  ∀ s : State, s.busy = false → 16 ≤ s.w.length → (stuffFrame s.w).length ≤ 256 →
    ∃ t, exec .stuff s = .next t ∧ exec .unstuff t = .next s

/-! ## The channel -/

/-- R211: a DRAW write offers the draw in bits [7:0], bits [31:8] ignored, in any state: DRAW_RANGE at 100 or more, DRAW_OVF while the
slot is full, and otherwise the slot holds it. Only a draw-consuming step, an accepted RUN or reset empties the slot. -/
def Obligations.DrawWriteRule : Prop :=
  (∀ (v : Word) (s : State),
    let d := v.toNat % 256
    (100 ≤ d → drawWrite v s = .next (raiseError .drawRange s)) ∧
      (d < 100 → s.drawFull = true → drawWrite v s = .next (raiseError .drawOvf s)) ∧
      (d < 100 → s.drawFull = false → drawWrite v s = .next { s with drawVal := BitVec.ofNat 7 d, drawFull := true })) ∧
  ∀ s t : State, step s = .next t → s.drawFull = true → t.drawFull = false →
    (s.cause = .command .run ∧ s.busy = false ∧ s.err = false) ∨ s.cause = .sequencer .loss ∨ s.cause = .sequencer .corr ∨
      s.cause = .sequencer .ack ∨ s.cause = .reset

/-- R210: each decision is true exactly below its percentage, so of the hundred draws it is true for 10, 20, 5 and 15. -/
def Obligations.DecisionsHaveStatedProbability : Prop :=
  (∀ r : BitVec 7, (dataLost r = true ↔ r.toNat < 10) ∧ (dataCorrupt r = true ↔ r.toNat < 20) ∧
    (ctrlCorrupt r = true ↔ r.toNat < 5) ∧ (ackLost r = true ↔ r.toNat < 15)) ∧
  (let count (p : BitVec 7 → Bool) : Nat := ((List.range 100).filter fun n => p (BitVec.ofNat 7 n)).length
   count dataLost = 10 ∧ count dataCorrupt = 20 ∧ count ctrlCorrupt = 5 ∧ count ackLost = 15)

/-! ## The run sequencer -/

/-- R233: a phase's step is enabled exactly when EVQ has the room it needs and, for LOSS, CORR and ACK, the slot holds a draw; a step
that is not enabled waits, changing nothing. -/
def Obligations.EnablingRule : Prop :=
  ∀ s : State, s.phase ≠ .idle →
    let need : Nat :=
      if s.phase = .cksum ∨ s.phase = .finish then 1 else if s.phase = .summary then 9 else 2
    (s.enabled = true ↔ s.evq.length + need ≤ s.cfg.evtDepth ∧
      (s.phase = .loss ∨ s.phase = .corr ∨ s.phase = .ack → s.drawFull = true)) ∧
      (s.enabled = false → sequencerStep s = s)

/-- R234: the BUILD step builds data frame i = NFRAMES: CRC, CTAB[i], FTAB[i], NFRAMES, one FRAME_CRC event, and CKSUM after the last.
The premise is the invariant of StepKeepsInvariant. -/
def Obligations.BuildStep : Prop :=
  ∀ s : State, s.Inv → s.enabled = true → s.phase = .build →
    let i := s.nframes.toNat
    let p := payload s.bitbuf i
    let c := crc16 p
    i < s.ndata.toNat ∧
      sequencerStep s =
        { s with
          crc := c
          ctab := s.ctab.write i c
          ftab := s.ftab.write i (stuffFrame (dataRaw s.nframes p c))
          nframes := BitVec.ofNat 32 (i + 1)
          evq := s.evq ++ [0x11000000#32, BitVec.ofNat 32 (i * 2 ^ 16 + c.toNat)]
          phase := if i + 1 = s.ndata.toNat then .cksum else .build }

/-- R235: the CKSUM step computes the run checksum over CTAB's slots below NDATA, high byte first, stores the control frame in slot
NDATA, and pushes one CHECKSUM event. -/
def Obligations.CksumStep : Prop :=
  ∀ s : State, s.Inv → s.enabled = true → s.phase = .cksum →
    let sum := (List.range s.ndata.toNat).foldl
      (fun x i => cksAdd (cksAdd x ((s.crcAt i).extractLsb' 8 8)) ((s.crcAt i).extractLsb' 0 8)) 0#8
    sequencerStep s =
      { s with
        sum := sum
        ftab := s.ftab.write s.ndata.toNat (stuffFrame (ctrlRaw s.cfg.ctrlCode (BitVec.ofNat 8 (255 - sum.toNat))))
        nframes := BitVec.ofNat 32 (s.ndata.toNat + 1)
        evq := s.evq ++ [BitVec.ofNat 32 (0x20000000 + (sum.toNat + 1) * 2 ^ 8 + (255 - sum.toNat))]
        fidx := 0
        att := 0
        phase := .send }

/-- R236: the SEND step starts an attempt: ATT and STAT_ATTEMPTS go up by one, SENT is pushed, and a data frame goes to LOSS, the
control frame to CORR. -/
def Obligations.SendStep : Prop :=
  ∀ s : State, s.Inv → s.enabled = true → s.phase = .send →
    s.att.toNat + 1 ≤ 100 ∧
      sequencerStep s =
        { s with
          att := BitVec.ofNat 7 (s.att.toNat + 1)
          stats := { s.stats with attempts := s.stats.attempts + 1#32 }
          evq := s.evq ++ [if s.fidx = s.ndata then 0x31080000#32 else 0x31000000#32,
            BitVec.ofNat 32 (s.fidx.toNat * 2 ^ 16 + (s.att.toNat + 1))]
          phase := if s.fidx < s.ndata then .loss else .corr }

/-- R237: the LOSS step consumes the draw; below 10 the frame is lost, counted and announced, and the attempt has failed (R250); otherwise
CORR follows and nothing is pushed. -/
def Obligations.LossStep : Prop :=
  ∀ s : State, s.Inv → s.enabled = true → s.phase = .loss →
    (s.drawVal.toNat < 10 →
      sequencerStep s = attemptFailed
        { s with
          drawFull := false
          stats := { s.stats with lost := s.stats.lost + 1#32 }
          evq := s.evq ++ [0x31100000#32, BitVec.ofNat 32 (s.fidx.toNat * 2 ^ 16 + s.att.toNat)] }) ∧
      (10 ≤ s.drawVal.toNat → sequencerStep s = { s with drawFull := false, phase := .corr })

/-- R238: the CORR step consumes the draw; a data frame is corrupted below 20 and the control frame below 5, each in its own counter, with
a CORRUPTED event; RECV follows in every case. -/
def Obligations.CorrStep : Prop :=
  ∀ s : State, s.Inv → s.enabled = true → s.phase = .corr →
    let at' := BitVec.ofNat 32 (s.fidx.toNat * 2 ^ 16 + s.att.toNat)
    (s.fidx < s.ndata → s.drawVal.toNat < 20 →
      sequencerStep s = { s with drawFull := false, phase := .recv, evq := s.evq ++ [0x31A00000#32, at'],
                                 stats := { s.stats with corrupt := s.stats.corrupt + 1#32 } }) ∧
      (s.fidx = s.ndata → s.drawVal.toNat < 5 →
        sequencerStep s = { s with drawFull := false, phase := .recv, evq := s.evq ++ [0x31A80000#32, at'],
                                   stats := { s.stats with csCorrupt := s.stats.csCorrupt + 1#32 } }) ∧
      (s.fidx < s.ndata ∧ 20 ≤ s.drawVal.toNat ∨ s.fidx = s.ndata ∧ 5 ≤ s.drawVal.toNat →
        sequencerStep s = { s with drawFull := false, phase := .recv })

/-- R240: the ACK step consumes the draw; below 15 the acknowledgment is lost, counted and announced, and the attempt has failed (R250);
otherwise ACK_RECEIVED is pushed and the frame is closed (R251). -/
def Obligations.AckStep : Prop :=
  ∀ s : State, s.Inv → s.enabled = true → s.phase = .ack →
    let at' := BitVec.ofNat 32 (s.fidx.toNat * 2 ^ 16 + s.att.toNat)
    (s.drawVal.toNat < 15 →
      sequencerStep s = attemptFailed
        { s with
          drawFull := false
          stats := { s.stats with ackLost := s.stats.ackLost + 1#32 }
          evq := s.evq ++ [if s.fidx = s.ndata then 0x31480000#32 else 0x31400000#32, at'] }) ∧
      (15 ≤ s.drawVal.toNat →
        sequencerStep s = endFrame
          { s with
            drawFull := false
            evq := s.evq ++ [if s.fidx = s.ndata then 0x31580000#32 else 0x31500000#32, at'] })

/-- R239, R260, R261: RECV announces the frame received; SUMMARY pushes the nine words of R94; FINISH pushes FINISHED, sets DONE and ends
the run. -/
def Obligations.RecvSummaryFinishSteps : Prop :=
  ∀ s : State, s.Inv → s.enabled = true →
    (s.phase = .recv →
      sequencerStep s =
        { s with
          evq := s.evq ++ [if s.fidx = s.ndata then 0x31B80000#32 else 0x31B00000#32,
            BitVec.ofNat 32 (s.fidx.toNat * 2 ^ 16 + s.att.toNat)]
          phase := .ack }) ∧
      (s.phase = .summary →
        sequencerStep s =
          { s with
            evq := s.evq ++ [0x48000000#32, s.stats.frames, s.stats.attempts, s.stats.lost, s.stats.corrupt, s.stats.ackLost,
              s.stats.csCorrupt, s.stats.maxFrame, s.stats.maxAtt]
            phase := .finish }) ∧
      (s.phase = .finish → sequencerStep s = { s with evq := s.evq ++ [0x50000000#32], done := true, phase := .idle })

/-- R250, R251: a failed attempt retries the same frame below 100 attempts; at the cap the frame is given up, flagged and counted, and
closed. Closing a frame tracks the maximum, the earliest frame winning a tie, and goes to the next frame or, past the last, to
SUMMARY. The premises are those of the invariant's delivery phases. -/
def Obligations.RetryCapAndFrameEnd : Prop :=
  (∀ s : State, s.att.toNat < 100 → attemptFailed s = { s with phase := .send }) ∧
  (∀ s : State, s.att.toNat = 100 →
    attemptFailed s = endFrame { s with caphit := true, stats := { s.stats with abandoned := s.stats.abandoned + 1#32 } }) ∧
  ∀ s : State, s.fidx ≤ s.ndata → s.ndata.toNat ≤ 65280 →
    endFrame s =
      { s with
        stats :=
          if s.stats.maxAtt.toNat < s.att.toNat then
            { s.stats with maxAtt := BitVec.ofNat 32 s.att.toNat, maxFrame := BitVec.ofNat 32 s.fidx.toNat }
          else s.stats
        fidx := BitVec.ofNat 17 (s.fidx.toNat + 1)
        att := 0
        phase := if s.fidx < s.ndata then .send else .summary }

/-- R215: a corruption decision has no effect but a counter and an event: two runs that differ only in the draw CORR takes agree
afterwards on everything else, so on the frames, the CRCs and whether the attempt goes on. -/
def Obligations.CorruptionNeverAffectsDelivery : Prop :=
  ∀ (s : State) (d : BitVec 7), s.phase = .corr → s.enabled = true →
    let t := sequencerStep s
    let u := sequencerStep { s with drawVal := d }
    t.phase = .recv ∧
      u = { t with
            drawVal := d
            evq := u.evq
            stats := { t.stats with corrupt := u.stats.corrupt, csCorrupt := u.stats.csCorrupt } }

/-- R90, R93: every sequencer step pushes nothing or one whole event: a header of TYPE 1 to 5 whose NPAY, 0, 1 or 8, is the number of
payload words that follow it, no more words than the step waits for, and never a DELIVERY header with KIND 6 or 7 or with LOST
for the control frame. -/
def Obligations.EventsAreSelfFraming : Prop :=
  ∀ s : State, s.Inv → s.enabled = true →
    ∃ ws : List Word, (sequencerStep s).evq = s.evq ++ ws ∧ ws.length ≤ s.phase.need ∧
      (ws = [] ∨ ∃ h ps, ws = h :: ps ∧
        let type := h.toNat / 2 ^ 28
        let npay := h.toNat / 2 ^ 24 % 16
        let kind := h.toNat / 2 ^ 20 % 8
        let ctl := h.toNat / 2 ^ 19 % 2
        1 ≤ type ∧ type ≤ 5 ∧ npay = ps.length ∧ (npay = 0 ∨ npay = 1 ∨ npay = 8) ∧
          (type = 3 → kind ≤ 5 ∧ ¬ (kind = 1 ∧ ctl = 1)))

/-! ## Invariants -/

/-- The state after reset meets the four invariants, with no attempt made. -/
def Obligations.InvariantsHoldAtReset : Prop :=
  State.reset.Inv ∧ State.reset.FramesInv ∧ State.reset.StatsInv ∧ State.reset.AttemptsInv fun _ => 0

/-- Every step keeps the block's invariant: the parameters, the buffers' bounds, the canonical slot memories, the draw's range, the
error latch, and the sequencer's counters in every phase. -/
def Obligations.StepKeepsInvariant : Prop :=
  ∀ s t : State, s.Inv → step s = .next t → t.Inv

/-- Every step keeps, while a run is in progress, that the frames built so far, their CRCs, CRC, SUM and the control frame are those of
the loaded source (R135, R155, R179, R234, R235). -/
def Obligations.StepKeepsFramesOfSource : Prop :=
  ∀ s t : State, s.Inv → s.FramesInv → step s = .next t → t.FramesInv

/-- Every step keeps the statistics' balance, and their relation to the attempts made of each frame, at every point of a run and after
it; so at the end of a run the six laws of R254 hold, where attempts(f) is how often the run took its SEND step for frame f. -/
def Obligations.StepKeepsStatisticsBalance : Prop :=
  (∀ s t : State, s.Inv → s.StatsInv → step s = .next t → t.StatsInv) ∧
  (∀ (s t : State) (n : Nat → Nat), s.Inv → s.StatsInv → s.AttemptsInv n → step s = .next t →
    t.AttemptsInv (s.attemptsAfter n)) ∧
  ∀ (s : State) (n : Nat → Nat), s.Inv → s.StatsInv → s.AttemptsInv n → s.done = true →
    let frames := s.stats.frames.toNat
    let attempts := s.stats.attempts.toNat
    let lost := s.stats.lost.toNat
    let maxFrame := s.stats.maxFrame.toNat
    let maxAtt := s.stats.maxAtt.toNat
    frames = s.ndata.toNat + 1 ∧
      (attempts = ((List.range frames).map n).sum ∧ (∀ f < frames, 1 ≤ n f ∧ n f ≤ 100) ∧ frames ≤ attempts ∧
        attempts ≤ 100 * frames) ∧
      (maxAtt ≤ 100 ∧ (∀ f < frames, n f ≤ maxAtt) ∧ maxFrame < frames ∧ n maxFrame = maxAtt ∧ ∀ f < maxFrame, n f < maxAtt) ∧
      (s.stats.abandoned.toNat ≤ frames ∧ lost + s.stats.ackLost.toNat = attempts - (frames - s.stats.abandoned.toNat)) ∧
      (s.stats.corrupt.toNat ≤ attempts - lost ∧ s.stats.csCorrupt.toNat ≤ n s.ndata.toNat) ∧
      (frames < 2 ^ 23 ∧ attempts < 2 ^ 23 ∧ lost < 2 ^ 23 ∧ s.stats.corrupt.toNat < 2 ^ 23 ∧ s.stats.ackLost.toNat < 2 ^ 23 ∧
        s.stats.csCorrupt.toNat < 2 ^ 23 ∧ maxFrame < 2 ^ 23 ∧ maxAtt < 2 ^ 23 ∧ s.stats.abandoned.toNat < 2 ^ 23) ∧
      (s.caphit = true ↔ s.stats.abandoned ≠ 0#32)

/-- R263: a run makes at most NDATA + 1 + 500·NDATA + 400 + 2 sequencer steps: every enabled step lowers the bound on the steps left,
RUN starts within it, host accesses do not move it, and the sequencer waits only for room or for a draw: with EVQ drained and
a draw in the slot it is enabled. -/
def Obligations.RunMakesProgress : Prop :=
  (∀ s : State, s.Inv → s.enabled = true → (sequencerStep s).stepsLeft < s.stepsLeft) ∧
  (∀ s t : State, s.Inv → s.busy = false → s.err = false → exec .run s = .next t →
    t.busy = true ∧ t.stepsLeft ≤ t.ndata.toNat + 1 + 500 * t.ndata.toNat + 400 + 2) ∧
  (∀ (s t : State) acc rest, s.busy = true → s.sched = .host acc :: rest → step s = .next t → t.stepsLeft = s.stepsLeft) ∧
  (∀ s : State, s.busy = true → s.enabled = false → s.evtStall = true ∨ s.drawWait = true) ∧
  ∀ s : State, s.Inv → s.busy = true → s.evq = [] → s.drawFull = true → s.enabled = true

/-- R262: the FINISH step ends the run: IDLE, BUSY 0, DONE 1, FINISHED the last word pushed, every frame of the source and the control
frame readable with FRAME_LOAD, and CRC and SUM those of the source. -/
def Obligations.EndOfRun : Prop :=
  ∀ s : State, s.Inv → s.FramesInv → s.phase = .finish → s.enabled = true →
    let t := sequencerStep s
    let n := s.ndata.toNat
    t.phase = .idle ∧ t.busy = false ∧ t.done = true ∧ t.nframes.toNat = n + 1 ∧ t.evq = s.evq ++ [0x50000000#32] ∧
      n = (s.bitbuf.length + 99) / 100 ∧ t.stats = s.stats ∧
      (∀ i : BitVec 16, i.toNat < n →
        let p := payload s.bitbuf i.toNat
        exec (.frameLoad i) t = .next { t with w := stuffFrame (dataRaw (i.setWidth 32) p (crc16 p)) }) ∧
      (let control := ctrlRaw s.cfg.ctrlCode (BitVec.ofNat 8 (255 - (sourceSum s.bitbuf n).toNat))
       exec (.frameLoad (BitVec.ofNat 16 n)) t = .next { t with w := stuffFrame control }) ∧
      t.sum = sourceSum s.bitbuf n ∧ t.crc = if n = 0 then 0xFFFF#16 else crc16 (payload s.bitbuf (n - 1))

/-! ## Whole-machine rules -/

/-- R231: the outcome of a run does not depend on when a step is taken: an enabled step commutes with popping an event word, with a
DRAW write into the empty slot, and, short of the run's end, with any command write. -/
def Obligations.HostAndSequencerCommute : Prop :=
  ∀ s : State, s.enabled = true →
    (s.evq ≠ [] → sequencerStep (busRead 3#6 s) = busRead 3#6 (sequencerStep s)) ∧
      (∀ (v : Word) (u : State), s.drawFull = false → drawWrite v s = .next u →
        drawWrite v (sequencerStep s) = .next (sequencerStep u)) ∧
      ∀ (v : Word) (u : State), s.phase ≠ .finish → commandWrite v s = .next u →
        commandWrite v (sequencerStep s) = .next (sequencerStep u)

/-- R32: what can write each field of the state. The parameters are never written; BITBUF, FTAB and the statistics are safe from every
command but the ones named; ERR and ERRCODE change only when a first error is latched, by CLR_ERR and by reset. Of the model's own
fields the schedule always loses its head, and the word last read (log 4) and the number of resets (log 7) change by a read and by
reset. -/
def Obligations.OnlyNamedWritersChangeState : Prop :=
  ∀ s t : State, step s = .next t →
    let c := s.cause
    t.cfg = s.cfg ∧ t.sched = s.sched.tail ∧
      (t.bitbuf ≠ s.bitbuf → (s.busy = false ∧ (c = .command .srcClear ∨ ∃ b, c = .command (.loadb b))) ∨ c = .reset) ∧
      (t.ftab ≠ s.ftab → c = .sequencer .build ∨ c = .sequencer .cksum ∨ c = .reset) ∧
      (t.ctab ≠ s.ctab → c = .sequencer .build ∨ c = .reset) ∧
      (t.nframes ≠ s.nframes →
        (s.busy = false ∧ c = .command .run) ∨ c = .sequencer .build ∨ c = .sequencer .cksum ∨ c = .reset) ∧
      (t.crc ≠ s.crc →
        (s.busy = false ∧ (c = .command .crcInit ∨ (∃ b, c = .command (.crcBit b)) ∨ (∃ b, c = .command (.crcByte b)) ∨
          c = .command .run)) ∨ c = .sequencer .build ∨ c = .reset) ∧
      (t.sum ≠ s.sum →
        (s.busy = false ∧ (c = .command .cksInit ∨ (∃ b, c = .command (.cksAdd b)) ∨ c = .command .run)) ∨
          c = .sequencer .cksum ∨ c = .reset) ∧
      (t.w ≠ s.w →
        (s.busy = false ∧ (c = .command .wClear ∨ (∃ n v, c = .command (.wAppend n v)) ∨ c = .command .stuff ∨
          c = .command .unstuff ∨ ∃ k, c = .command (.frameLoad k))) ∨ c = .reset) ∧
      (t.stats ≠ s.stats →
        (s.busy = false ∧ c = .command .run) ∨ c = .sequencer .send ∨ c = .sequencer .loss ∨ c = .sequencer .corr ∨
          c = .sequencer .ack ∨ c = .reset) ∧
      (t.phase ≠ s.phase ∨ t.ndata ≠ s.ndata ∨ t.fidx ≠ s.fidx ∨ t.att ≠ s.att →
        (s.busy = false ∧ c = .command .run) ∨ c = .sequencer s.phase ∨ c = .reset) ∧
      (t.drawFull ≠ s.drawFull ∨ t.drawVal ≠ s.drawVal →
        c = .draw ∨ (s.busy = false ∧ c = .command .run) ∨ c = .sequencer .loss ∨ c = .sequencer .corr ∨
          c = .sequencer .ack ∨ c = .reset) ∧
      (t.evq ≠ s.evq → c = .sequencer s.phase ∨ c = .read 3#6 ∨ c = .reset) ∧
      (t.done ≠ s.done → (s.busy = false ∧ c = .command .run) ∨ c = .sequencer .finish ∨ c = .reset) ∧
      (t.caphit ≠ s.caphit → (s.busy = false ∧ c = .command .run) ∨
        ((c = .sequencer .loss ∨ c = .sequencer .ack) ∧ s.att ≥ 100#7) ∨ c = .reset) ∧
      (t.err ≠ s.err ∨ t.errcode ≠ s.errcode →
        (s.err = false ∧ ∃ e, t = raiseError e { s with sched := s.sched.tail }) ∨ c = .command .clrErr ∨ c = .reset) ∧
      (t.rdata ≠ s.rdata → (∃ a, c = .read a) ∨ c = .reset) ∧ (t.resets ≠ s.resets → c = .reset)

/-- R114: after N accepted LOADBs from an empty buffer a RUN builds ceil(8N / 100) data frames plus exactly one control frame. -/
def Obligations.FrameCountLaw : Prop :=
  ∀ (s : State) (bs : List Byte), s.cfg.legal → s.busy = false → s.err = false → s.bitbuf = [] →
    8 * bs.length ≤ 100 * s.cfg.maxDataFrames →
    ∃ t u, issue (pseudoLoads bs) s = .next t ∧ t = { s with bitbuf := t.bitbuf } ∧ t.bitbuf.length = 8 * bs.length ∧
      exec .run t = .next u ∧ u.ndata.toNat = (8 * bs.length + 99) / 100 ∧ u.stats.frames.toNat = u.ndata.toNat + 1

/-- R340: the value of every element after the reset transition, from any state, that the rule gives one; the parameters and what the
host does next stay. DRAW_VAL and the contents of FTAB and CTAB, which the rule leaves unspecified, are not stated. -/
def Obligations.ResetState : Prop :=
  ∀ (s : State) (d : Option Access),
    let t := resetBlock d s
    t.cfg = s.cfg ∧ t.sched = s.sched ∧ t.busy = false ∧ t.done = false ∧ t.err = false ∧ t.caphit = false ∧
      t.drawFull = false ∧ t.errcode = 0#4 ∧ t.phase = .idle ∧ t.status = 0x00000000#32 ∧ t.bitbuf = [] ∧ t.nframes = 0#32 ∧
      t.crc = 0xFFFF#16 ∧ t.sum = 0#8 ∧ t.w = [] ∧
      t.stats = { frames := 0, attempts := 0, lost := 0, corrupt := 0, ackLost := 0, csCorrupt := 0, maxFrame := 0, maxAtt := 0,
                  abandoned := 0 } ∧
      t.ndata = 0#17 ∧ t.fidx = 0#17 ∧ t.att = 0#7 ∧ t.evq = [] ∧
      (∀ k, exec (.frameLoad k) t = .next (raiseError .badArg t)) ∧
      ∀ a : PortAddr, readWord a t = readWord a State.reset

/-- R340: the contents the spec leaves unspecified never reach a read or an event: two states that differ only in them and in the
left-over value of an empty draw slot step alike, to states that differ only so. A read tried while reset is asserted is left
out, since it returns any value (93_implementation_defined.md). -/
def Obligations.UnspecifiedContentsStayHidden : Prop :=
  ∀ s s' t : State, s.Inv → s.sameVisible s' → (∀ a, s.sched.head? ≠ some (.reset (some (.read a)))) → step s = .next t →
    ∃ t', step s' = .next t' ∧ t.sameVisible t' ∧ t'.rdata = t.rdata ∧ t'.evq = t.evq

/-- R97: the assembler rejects an operand out of its range and truncates none: what it accepts is a command with exactly those
operands, and every command has its written form. -/
def Obligations.AssemblerNeverTruncates : Prop :=
  (∀ o ns i, assemble o ns = some i → i.wellFormed = true ∧ i.opcode = o ∧ operandsOf i = ns) ∧
    ∀ i : Instr, i.wellFormed = true → assemble i.opcode (operandsOf i) = some i

/-- R99: the pseudo-instructions do what their expansions do: LOADS loads all its bytes, CRC_HALF and CKS_HALF feed the high byte first,
and W_BITS appends its whole string, whatever its length. -/
def Obligations.PseudoInstructionsRunAsSequences : Prop :=
  ∀ s : State, s.busy = false →
    (∀ bs : List Byte, s.bitbuf.length + 8 * bs.length ≤ 100 * s.cfg.maxDataFrames →
      issue (pseudoLoads bs) s = .next { s with bitbuf := s.bitbuf ++ bs.flatMap fun b => bitsMSB b 8 }) ∧
      (∀ v : BitVec 16, issue (pseudoCrcHalf v) s = .next { s with crc := crcFrom s.crc (bitsMSB v 16) }) ∧
      (∀ v : BitVec 16, issue (pseudoCksHalf v) s =
        .next { s with sum := cksAdd (cksAdd s.sum (v.extractLsb' 8 8)) (v.extractLsb' 0 8) }) ∧
      ∀ x : Bits, s.w.length + x.length ≤ 256 → issue (pseudoWBits x) s = .next { s with w := s.w ++ x }
end

