-- ==== Sys2Proof/Laws/Memory.lean ====
section
/-! SUPPORT. Slot memories: a read after a write, and the canonical form. -/

namespace Sys2Proof.Machine

variable {α : Type}

@[simp] theorem Memory.read_nil (k : Nat) : Memory.read ([] : Memory α) k = none := rfl

theorem Memory.read_cons (j : Nat) (x : α) (m : Memory α) (k : Nat) :
    Memory.read ((j, x) :: m) k = if j = k then some x else Memory.read m k := rfl

/-- A read after a write to the same slot gives the value written. -/
@[simp] theorem Memory.read_write_same (m : Memory α) (k : Nat) (x : α) : (m.write k x).read k = some x := by
  induction m with
  | nil => simp [Memory.write, Memory.read]
  | cons p m ih =>
    obtain ⟨j, y⟩ := p
    simp only [Memory.write]
    split
    · simp [Memory.read]
    · split
      · simp [Memory.read]
      · rename_i h
        simp [Memory.read_cons, ih, Ne.symm h]

/-- A write leaves every other slot alone. -/
theorem Memory.read_write_other (m : Memory α) {k j : Nat} (x : α) (h : j ≠ k) : (m.write k x).read j = m.read j := by
  induction m with
  | nil => simp [Memory.write, Memory.read, h.symm]
  | cons p m ih =>
    obtain ⟨i, y⟩ := p
    simp only [Memory.write]
    split
    · simp [Memory.read_cons, h.symm]
    · split
      · rename_i e; subst e
        simp [Memory.read_cons, h.symm]
      · simp [Memory.read_cons, ih]

/-- What a slot reads as is listed. -/
theorem Memory.mem_of_read {m : Memory α} {k : Nat} {x : α} (h : m.read k = some x) : (k, x) ∈ m := by
  induction m with
  | nil => simp at h
  | cons p m ih =>
    obtain ⟨j, y⟩ := p
    rw [Memory.read_cons] at h
    split at h
    · rename_i e; cases h; exact e ▸ List.mem_cons_self
    · exact List.mem_cons_of_mem _ (ih h)

/-- The slots a write can list: its own and those listed before. -/
theorem Memory.mem_write {m : Memory α} {k : Nat} {x : α} {p : Nat × α} (h : p ∈ m.write k x) : p = (k, x) ∨ p ∈ m := by
  induction m with
  | nil => simpa [Memory.write] using h
  | cons q m ih =>
    obtain ⟨j, y⟩ := q
    simp only [Memory.write] at h
    split at h
    · simpa using h
    · split at h
      · rcases List.mem_cons.1 h with h | h
        · exact .inl h
        · exact .inr (List.mem_cons_of_mem _ h)
      · rcases List.mem_cons.1 h with h | h
        · exact .inr (h ▸ List.mem_cons_self)
        · exact (ih h).imp_right (List.mem_cons_of_mem _)

/-- The canonical form of a cons: the tail is canonical and the head's slot lies below the tail's first. -/
theorem Memory.wf_cons (j : Nat) (y : α) (m : Memory α) :
    Memory.wf ((j, y) :: m) = true ↔ Memory.wf m = true ∧ ∀ p ∈ m.head?, j < p.1 := by
  cases m with
  | nil => simp [Memory.wf]
  | cons q m => obtain ⟨k, z⟩ := q; simp [Memory.wf, and_comm]

/-- The first slot listed after a write. -/
theorem Memory.head_write (m : Memory α) (k : Nat) (x : α) {p : Nat × α} (h : p ∈ (m.write k x).head?) :
    p = (k, x) ∨ p ∈ m.head? := by
  cases m with
  | nil => simpa [Memory.write, eq_comm] using h
  | cons q m =>
    obtain ⟨j, y⟩ := q
    simp only [Memory.write] at h
    split at h
    · simp_all
    · split at h <;> simp_all

/-- Every write keeps the canonical form. -/
theorem Memory.wf_write (m : Memory α) (k : Nat) (x : α) (h : m.wf = true) : (m.write k x).wf = true := by
  induction m with
  | nil => rfl
  | cons q m ih =>
    obtain ⟨j, y⟩ := q
    rw [Memory.wf_cons] at h
    simp only [Memory.write]
    split
    · rename_i hk
      rw [Memory.wf_cons, Memory.wf_cons]
      exact ⟨h, by simp [hk]⟩
    · split
      · rename_i e; subst e
        exact (Memory.wf_cons _ _ _).2 h
      · rw [Memory.wf_cons]
        refine ⟨ih h.1, fun p hp => ?_⟩
        rcases Memory.head_write _ _ _ hp with rfl | hp
        · show j < k; omega
        · exact h.2 p hp

end Sys2Proof.Machine
end

