-- ==== Sys2Proof/Laws/State.lean ====
section
/-! SUPPORT. One lemma per field for each named update of the state, so that no later proof unfolds an update. -/

namespace Sys2Proof.Machine

/-! raiseError -/

@[simp] theorem raiseError_cfg (c : ErrorCause) (s : State) : (raiseError c s).cfg = s.cfg := rfl
@[simp] theorem raiseError_bitbuf (c : ErrorCause) (s : State) : (raiseError c s).bitbuf = s.bitbuf := rfl
@[simp] theorem raiseError_ftab (c : ErrorCause) (s : State) : (raiseError c s).ftab = s.ftab := rfl
@[simp] theorem raiseError_nframes (c : ErrorCause) (s : State) : (raiseError c s).nframes = s.nframes := rfl
@[simp] theorem raiseError_ctab (c : ErrorCause) (s : State) : (raiseError c s).ctab = s.ctab := rfl
@[simp] theorem raiseError_stats (c : ErrorCause) (s : State) : (raiseError c s).stats = s.stats := rfl
@[simp] theorem raiseError_crc (c : ErrorCause) (s : State) : (raiseError c s).crc = s.crc := rfl
@[simp] theorem raiseError_sum (c : ErrorCause) (s : State) : (raiseError c s).sum = s.sum := rfl
@[simp] theorem raiseError_w (c : ErrorCause) (s : State) : (raiseError c s).w = s.w := rfl
@[simp] theorem raiseError_phase (c : ErrorCause) (s : State) : (raiseError c s).phase = s.phase := rfl
@[simp] theorem raiseError_ndata (c : ErrorCause) (s : State) : (raiseError c s).ndata = s.ndata := rfl
@[simp] theorem raiseError_fidx (c : ErrorCause) (s : State) : (raiseError c s).fidx = s.fidx := rfl
@[simp] theorem raiseError_att (c : ErrorCause) (s : State) : (raiseError c s).att = s.att := rfl
@[simp] theorem raiseError_drawFull (c : ErrorCause) (s : State) : (raiseError c s).drawFull = s.drawFull := rfl
@[simp] theorem raiseError_drawVal (c : ErrorCause) (s : State) : (raiseError c s).drawVal = s.drawVal := rfl
@[simp] theorem raiseError_evq (c : ErrorCause) (s : State) : (raiseError c s).evq = s.evq := rfl
@[simp] theorem raiseError_done (c : ErrorCause) (s : State) : (raiseError c s).done = s.done := rfl
@[simp] theorem raiseError_err (c : ErrorCause) (s : State) : (raiseError c s).err = true := rfl
@[simp] theorem raiseError_errcode (c : ErrorCause) (s : State) : (raiseError c s).errcode = (if s.err then s.errcode else c.code) := rfl
@[simp] theorem raiseError_caphit (c : ErrorCause) (s : State) : (raiseError c s).caphit = s.caphit := rfl
@[simp] theorem raiseError_sched (c : ErrorCause) (s : State) : (raiseError c s).sched = s.sched := rfl
@[simp] theorem raiseError_rdata (c : ErrorCause) (s : State) : (raiseError c s).rdata = s.rdata := rfl
@[simp] theorem raiseError_resets (c : ErrorCause) (s : State) : (raiseError c s).resets = s.resets := rfl

/-! clearError -/

@[simp] theorem clearError_cfg (s : State) : (clearError s).cfg = s.cfg := rfl
@[simp] theorem clearError_bitbuf (s : State) : (clearError s).bitbuf = s.bitbuf := rfl
@[simp] theorem clearError_ftab (s : State) : (clearError s).ftab = s.ftab := rfl
@[simp] theorem clearError_nframes (s : State) : (clearError s).nframes = s.nframes := rfl
@[simp] theorem clearError_ctab (s : State) : (clearError s).ctab = s.ctab := rfl
@[simp] theorem clearError_stats (s : State) : (clearError s).stats = s.stats := rfl
@[simp] theorem clearError_crc (s : State) : (clearError s).crc = s.crc := rfl
@[simp] theorem clearError_sum (s : State) : (clearError s).sum = s.sum := rfl
@[simp] theorem clearError_w (s : State) : (clearError s).w = s.w := rfl
@[simp] theorem clearError_phase (s : State) : (clearError s).phase = s.phase := rfl
@[simp] theorem clearError_ndata (s : State) : (clearError s).ndata = s.ndata := rfl
@[simp] theorem clearError_fidx (s : State) : (clearError s).fidx = s.fidx := rfl
@[simp] theorem clearError_att (s : State) : (clearError s).att = s.att := rfl
@[simp] theorem clearError_drawFull (s : State) : (clearError s).drawFull = s.drawFull := rfl
@[simp] theorem clearError_drawVal (s : State) : (clearError s).drawVal = s.drawVal := rfl
@[simp] theorem clearError_evq (s : State) : (clearError s).evq = s.evq := rfl
@[simp] theorem clearError_done (s : State) : (clearError s).done = s.done := rfl
@[simp] theorem clearError_err (s : State) : (clearError s).err = false := rfl
@[simp] theorem clearError_errcode (s : State) : (clearError s).errcode = 0 := rfl
@[simp] theorem clearError_caphit (s : State) : (clearError s).caphit = s.caphit := rfl
@[simp] theorem clearError_sched (s : State) : (clearError s).sched = s.sched := rfl
@[simp] theorem clearError_rdata (s : State) : (clearError s).rdata = s.rdata := rfl
@[simp] theorem clearError_resets (s : State) : (clearError s).resets = s.resets := rfl

/-! push -/

@[simp] theorem push_cfg (ws : List Word) (s : State) : (push ws s).cfg = s.cfg := rfl
@[simp] theorem push_bitbuf (ws : List Word) (s : State) : (push ws s).bitbuf = s.bitbuf := rfl
@[simp] theorem push_ftab (ws : List Word) (s : State) : (push ws s).ftab = s.ftab := rfl
@[simp] theorem push_nframes (ws : List Word) (s : State) : (push ws s).nframes = s.nframes := rfl
@[simp] theorem push_ctab (ws : List Word) (s : State) : (push ws s).ctab = s.ctab := rfl
@[simp] theorem push_stats (ws : List Word) (s : State) : (push ws s).stats = s.stats := rfl
@[simp] theorem push_crc (ws : List Word) (s : State) : (push ws s).crc = s.crc := rfl
@[simp] theorem push_sum (ws : List Word) (s : State) : (push ws s).sum = s.sum := rfl
@[simp] theorem push_w (ws : List Word) (s : State) : (push ws s).w = s.w := rfl
@[simp] theorem push_phase (ws : List Word) (s : State) : (push ws s).phase = s.phase := rfl
@[simp] theorem push_ndata (ws : List Word) (s : State) : (push ws s).ndata = s.ndata := rfl
@[simp] theorem push_fidx (ws : List Word) (s : State) : (push ws s).fidx = s.fidx := rfl
@[simp] theorem push_att (ws : List Word) (s : State) : (push ws s).att = s.att := rfl
@[simp] theorem push_drawFull (ws : List Word) (s : State) : (push ws s).drawFull = s.drawFull := rfl
@[simp] theorem push_drawVal (ws : List Word) (s : State) : (push ws s).drawVal = s.drawVal := rfl
@[simp] theorem push_evq (ws : List Word) (s : State) : (push ws s).evq = s.evq ++ ws := rfl
@[simp] theorem push_done (ws : List Word) (s : State) : (push ws s).done = s.done := rfl
@[simp] theorem push_err (ws : List Word) (s : State) : (push ws s).err = s.err := rfl
@[simp] theorem push_errcode (ws : List Word) (s : State) : (push ws s).errcode = s.errcode := rfl
@[simp] theorem push_caphit (ws : List Word) (s : State) : (push ws s).caphit = s.caphit := rfl
@[simp] theorem push_sched (ws : List Word) (s : State) : (push ws s).sched = s.sched := rfl
@[simp] theorem push_rdata (ws : List Word) (s : State) : (push ws s).rdata = s.rdata := rfl
@[simp] theorem push_resets (ws : List Word) (s : State) : (push ws s).resets = s.resets := rfl

/-! takeDraw -/

@[simp] theorem takeDraw_cfg (s : State) : (takeDraw s).cfg = s.cfg := rfl
@[simp] theorem takeDraw_bitbuf (s : State) : (takeDraw s).bitbuf = s.bitbuf := rfl
@[simp] theorem takeDraw_ftab (s : State) : (takeDraw s).ftab = s.ftab := rfl
@[simp] theorem takeDraw_nframes (s : State) : (takeDraw s).nframes = s.nframes := rfl
@[simp] theorem takeDraw_ctab (s : State) : (takeDraw s).ctab = s.ctab := rfl
@[simp] theorem takeDraw_stats (s : State) : (takeDraw s).stats = s.stats := rfl
@[simp] theorem takeDraw_crc (s : State) : (takeDraw s).crc = s.crc := rfl
@[simp] theorem takeDraw_sum (s : State) : (takeDraw s).sum = s.sum := rfl
@[simp] theorem takeDraw_w (s : State) : (takeDraw s).w = s.w := rfl
@[simp] theorem takeDraw_phase (s : State) : (takeDraw s).phase = s.phase := rfl
@[simp] theorem takeDraw_ndata (s : State) : (takeDraw s).ndata = s.ndata := rfl
@[simp] theorem takeDraw_fidx (s : State) : (takeDraw s).fidx = s.fidx := rfl
@[simp] theorem takeDraw_att (s : State) : (takeDraw s).att = s.att := rfl
@[simp] theorem takeDraw_drawFull (s : State) : (takeDraw s).drawFull = false := rfl
@[simp] theorem takeDraw_drawVal (s : State) : (takeDraw s).drawVal = s.drawVal := rfl
@[simp] theorem takeDraw_evq (s : State) : (takeDraw s).evq = s.evq := rfl
@[simp] theorem takeDraw_done (s : State) : (takeDraw s).done = s.done := rfl
@[simp] theorem takeDraw_err (s : State) : (takeDraw s).err = s.err := rfl
@[simp] theorem takeDraw_errcode (s : State) : (takeDraw s).errcode = s.errcode := rfl
@[simp] theorem takeDraw_caphit (s : State) : (takeDraw s).caphit = s.caphit := rfl
@[simp] theorem takeDraw_sched (s : State) : (takeDraw s).sched = s.sched := rfl
@[simp] theorem takeDraw_rdata (s : State) : (takeDraw s).rdata = s.rdata := rfl
@[simp] theorem takeDraw_resets (s : State) : (takeDraw s).resets = s.resets := rfl

/-! busRead -/

@[simp] theorem busRead_cfg (a : PortAddr) (s : State) : (busRead a s).cfg = s.cfg := rfl
@[simp] theorem busRead_bitbuf (a : PortAddr) (s : State) : (busRead a s).bitbuf = s.bitbuf := rfl
@[simp] theorem busRead_ftab (a : PortAddr) (s : State) : (busRead a s).ftab = s.ftab := rfl
@[simp] theorem busRead_nframes (a : PortAddr) (s : State) : (busRead a s).nframes = s.nframes := rfl
@[simp] theorem busRead_ctab (a : PortAddr) (s : State) : (busRead a s).ctab = s.ctab := rfl
@[simp] theorem busRead_stats (a : PortAddr) (s : State) : (busRead a s).stats = s.stats := rfl
@[simp] theorem busRead_crc (a : PortAddr) (s : State) : (busRead a s).crc = s.crc := rfl
@[simp] theorem busRead_sum (a : PortAddr) (s : State) : (busRead a s).sum = s.sum := rfl
@[simp] theorem busRead_w (a : PortAddr) (s : State) : (busRead a s).w = s.w := rfl
@[simp] theorem busRead_phase (a : PortAddr) (s : State) : (busRead a s).phase = s.phase := rfl
@[simp] theorem busRead_ndata (a : PortAddr) (s : State) : (busRead a s).ndata = s.ndata := rfl
@[simp] theorem busRead_fidx (a : PortAddr) (s : State) : (busRead a s).fidx = s.fidx := rfl
@[simp] theorem busRead_att (a : PortAddr) (s : State) : (busRead a s).att = s.att := rfl
@[simp] theorem busRead_drawFull (a : PortAddr) (s : State) : (busRead a s).drawFull = s.drawFull := rfl
@[simp] theorem busRead_drawVal (a : PortAddr) (s : State) : (busRead a s).drawVal = s.drawVal := rfl
@[simp] theorem busRead_evq (a : PortAddr) (s : State) : (busRead a s).evq = (if regAt a = some .evtData then s.evq.tail else s.evq) := rfl
@[simp] theorem busRead_done (a : PortAddr) (s : State) : (busRead a s).done = s.done := rfl
@[simp] theorem busRead_err (a : PortAddr) (s : State) : (busRead a s).err = s.err := rfl
@[simp] theorem busRead_errcode (a : PortAddr) (s : State) : (busRead a s).errcode = s.errcode := rfl
@[simp] theorem busRead_caphit (a : PortAddr) (s : State) : (busRead a s).caphit = s.caphit := rfl
@[simp] theorem busRead_sched (a : PortAddr) (s : State) : (busRead a s).sched = s.sched := rfl
@[simp] theorem busRead_rdata (a : PortAddr) (s : State) : (busRead a s).rdata = readWord a s := rfl
@[simp] theorem busRead_resets (a : PortAddr) (s : State) : (busRead a s).resets = s.resets := rfl

/-! endFrame: the fields it leaves alone -/

@[simp] theorem endFrame_cfg (s : State) : (endFrame s).cfg = s.cfg := rfl
@[simp] theorem endFrame_bitbuf (s : State) : (endFrame s).bitbuf = s.bitbuf := rfl
@[simp] theorem endFrame_ftab (s : State) : (endFrame s).ftab = s.ftab := rfl
@[simp] theorem endFrame_nframes (s : State) : (endFrame s).nframes = s.nframes := rfl
@[simp] theorem endFrame_ctab (s : State) : (endFrame s).ctab = s.ctab := rfl
@[simp] theorem endFrame_crc (s : State) : (endFrame s).crc = s.crc := rfl
@[simp] theorem endFrame_sum (s : State) : (endFrame s).sum = s.sum := rfl
@[simp] theorem endFrame_w (s : State) : (endFrame s).w = s.w := rfl
@[simp] theorem endFrame_ndata (s : State) : (endFrame s).ndata = s.ndata := rfl
@[simp] theorem endFrame_drawFull (s : State) : (endFrame s).drawFull = s.drawFull := rfl
@[simp] theorem endFrame_drawVal (s : State) : (endFrame s).drawVal = s.drawVal := rfl
@[simp] theorem endFrame_evq (s : State) : (endFrame s).evq = s.evq := rfl
@[simp] theorem endFrame_done (s : State) : (endFrame s).done = s.done := rfl
@[simp] theorem endFrame_err (s : State) : (endFrame s).err = s.err := rfl
@[simp] theorem endFrame_errcode (s : State) : (endFrame s).errcode = s.errcode := rfl
@[simp] theorem endFrame_caphit (s : State) : (endFrame s).caphit = s.caphit := rfl
@[simp] theorem endFrame_sched (s : State) : (endFrame s).sched = s.sched := rfl
@[simp] theorem endFrame_rdata (s : State) : (endFrame s).rdata = s.rdata := rfl
@[simp] theorem endFrame_resets (s : State) : (endFrame s).resets = s.resets := rfl

/-! startRun: the fields it leaves alone -/

@[simp] theorem startRun_cfg (s : State) : (startRun s).cfg = s.cfg := rfl
@[simp] theorem startRun_bitbuf (s : State) : (startRun s).bitbuf = s.bitbuf := rfl
@[simp] theorem startRun_ftab (s : State) : (startRun s).ftab = s.ftab := rfl
@[simp] theorem startRun_ctab (s : State) : (startRun s).ctab = s.ctab := rfl
@[simp] theorem startRun_w (s : State) : (startRun s).w = s.w := rfl
@[simp] theorem startRun_drawVal (s : State) : (startRun s).drawVal = s.drawVal := rfl
@[simp] theorem startRun_evq (s : State) : (startRun s).evq = s.evq := rfl
@[simp] theorem startRun_err (s : State) : (startRun s).err = s.err := rfl
@[simp] theorem startRun_errcode (s : State) : (startRun s).errcode = s.errcode := rfl
@[simp] theorem startRun_sched (s : State) : (startRun s).sched = s.sched := rfl
@[simp] theorem startRun_rdata (s : State) : (startRun s).rdata = s.rdata := rfl
@[simp] theorem startRun_resets (s : State) : (startRun s).resets = s.resets := rfl

/-! attemptFailed: the fields it leaves alone -/

@[simp] theorem attemptFailed_cfg (s : State) : (attemptFailed s).cfg = s.cfg := by
  unfold attemptFailed; split <;> rfl
@[simp] theorem attemptFailed_bitbuf (s : State) : (attemptFailed s).bitbuf = s.bitbuf := by
  unfold attemptFailed; split <;> rfl
@[simp] theorem attemptFailed_ftab (s : State) : (attemptFailed s).ftab = s.ftab := by
  unfold attemptFailed; split <;> rfl
@[simp] theorem attemptFailed_nframes (s : State) : (attemptFailed s).nframes = s.nframes := by
  unfold attemptFailed; split <;> rfl
@[simp] theorem attemptFailed_ctab (s : State) : (attemptFailed s).ctab = s.ctab := by
  unfold attemptFailed; split <;> rfl
@[simp] theorem attemptFailed_crc (s : State) : (attemptFailed s).crc = s.crc := by
  unfold attemptFailed; split <;> rfl
@[simp] theorem attemptFailed_sum (s : State) : (attemptFailed s).sum = s.sum := by
  unfold attemptFailed; split <;> rfl
@[simp] theorem attemptFailed_w (s : State) : (attemptFailed s).w = s.w := by
  unfold attemptFailed; split <;> rfl
@[simp] theorem attemptFailed_ndata (s : State) : (attemptFailed s).ndata = s.ndata := by
  unfold attemptFailed; split <;> rfl
@[simp] theorem attemptFailed_drawFull (s : State) : (attemptFailed s).drawFull = s.drawFull := by
  unfold attemptFailed; split <;> rfl
@[simp] theorem attemptFailed_drawVal (s : State) : (attemptFailed s).drawVal = s.drawVal := by
  unfold attemptFailed; split <;> rfl
@[simp] theorem attemptFailed_evq (s : State) : (attemptFailed s).evq = s.evq := by
  unfold attemptFailed; split <;> rfl
@[simp] theorem attemptFailed_done (s : State) : (attemptFailed s).done = s.done := by
  unfold attemptFailed; split <;> rfl
@[simp] theorem attemptFailed_err (s : State) : (attemptFailed s).err = s.err := by
  unfold attemptFailed; split <;> rfl
@[simp] theorem attemptFailed_errcode (s : State) : (attemptFailed s).errcode = s.errcode := by
  unfold attemptFailed; split <;> rfl
@[simp] theorem attemptFailed_sched (s : State) : (attemptFailed s).sched = s.sched := by
  unfold attemptFailed; split <;> rfl
@[simp] theorem attemptFailed_rdata (s : State) : (attemptFailed s).rdata = s.rdata := by
  unfold attemptFailed; split <;> rfl
@[simp] theorem attemptFailed_resets (s : State) : (attemptFailed s).resets = s.resets := by
  unfold attemptFailed; split <;> rfl

end Sys2Proof.Machine
end

