-- ==== Sys2Proof/Laws/Ops.lean ====
section
/-! SUPPORT. What the shared operations can do, said once for each: the guards, the meanings, the port, the sequencer's steps and
`step`. -/

namespace Sys2Proof.Machine

/-! The BUSY guard -/

theorem State.busy_eq_true {s : State} : s.busy = true ↔ s.phase ≠ .idle := by simp [State.busy]

theorem State.busy_eq_false {s : State} : s.busy = false ↔ s.phase = .idle := by simp [State.busy]

theorem whenIdle_of_idle {s : State} (h : s.busy = false) (body : Result) : whenIdle s body = body := by
  simp [whenIdle, h]

theorem whenIdle_of_busy {s : State} (h : s.busy = true) (body : Result) : whenIdle s body = raised .busy s := by
  simp [whenIdle, h]

theorem whenIdle_next {s t : State} {body : Result} (h : whenIdle s body = .next t) :
    (s.busy = true ∧ t = raiseError .busy s) ∨ (s.busy = false ∧ body = .next t) := by
  cases hb : s.busy with
  | true => rw [whenIdle_of_busy hb, raised] at h; cases h; exact .inl ⟨rfl, rfl⟩
  | false => rw [whenIdle_of_idle hb] at h; exact .inr ⟨rfl, h⟩

theorem raised_next {s t : State} {c : ErrorCause} (h : raised c s = .next t) : t = raiseError c s := by
  cases h; rfl

/-- The spec's own form of `raise Error(c)` (R302). -/
theorem raiseError_of_err {s : State} (c : ErrorCause) (h : s.err = true) : raiseError c s = s := by
  cases s; simp_all [raiseError]

theorem raiseError_of_no_err {s : State} (c : ErrorCause) (h : s.err = false) :
    raiseError c s = { s with err := true, errcode := c.code } := by
  simp [raiseError, h]

/-! The meanings -/

/-- Everything a command can do: nothing, latch an error, clear the latch, or (with no run in progress) write one unit's register
or start a run. -/
theorem exec_next {i : Instr} {s t : State} (h : exec i s = .next t) :
    t = s ∨ (∃ c, t = raiseError c s) ∨ (i = .clrErr ∧ t = clearError s) ∨
      (s.busy = false ∧
        ((i = .srcClear ∧ t = { s with bitbuf := [] }) ∨
          (∃ b, i = .loadb b ∧ s.bitbuf.length + 8 ≤ s.cfg.maxBits ∧ t = { s with bitbuf := s.bitbuf ++ bitsMSB b 8 }) ∨
          (∃ c, (i = .crcInit ∨ (∃ b, i = .crcBit b) ∨ ∃ b, i = .crcByte b) ∧ t = { s with crc := c }) ∨
          (∃ v, (i = .cksInit ∨ ∃ b, i = .cksAdd b) ∧ t = { s with sum := v }) ∨
          (∃ w, (i = .wClear ∨ (∃ n v, i = .wAppend n v) ∨ i = .stuff ∨ i = .unstuff ∨ ∃ k, i = .frameLoad k) ∧
            t = { s with w := w }) ∨
          (i = .run ∧ s.err = false ∧ t = startRun s))) := by
  cases i with
  | nop => cases h; exact .inl rfl
  | clrErr => cases h; exact .inr (.inr (.inl ⟨rfl, rfl⟩))
  | srcClear =>
    rcases whenIdle_next h with ⟨_, rfl⟩ | ⟨hb, h⟩
    · exact .inr (.inl ⟨_, rfl⟩)
    · cases h; exact .inr (.inr (.inr ⟨hb, .inl ⟨rfl, rfl⟩⟩))
  | loadb b =>
    rcases whenIdle_next h with ⟨_, rfl⟩ | ⟨hb, h⟩
    · exact .inr (.inl ⟨_, rfl⟩)
    · split at h
      · exact .inr (.inl ⟨_, raised_next h⟩)
      · cases h; exact .inr (.inr (.inr ⟨hb, .inr (.inl ⟨b, rfl, by omega, rfl⟩)⟩))
  | run =>
    rcases whenIdle_next h with ⟨_, rfl⟩ | ⟨hb, h⟩
    · exact .inr (.inl ⟨_, rfl⟩)
    · split at h
      · cases h; exact .inl rfl
      · cases h
        exact .inr (.inr (.inr ⟨hb, .inr (.inr (.inr (.inr (.inr ⟨rfl, by simp_all, rfl⟩))))⟩))
  | crcInit =>
    rcases whenIdle_next h with ⟨_, rfl⟩ | ⟨hb, h⟩
    · exact .inr (.inl ⟨_, rfl⟩)
    · cases h; exact .inr (.inr (.inr ⟨hb, .inr (.inr (.inl ⟨_, .inl rfl, rfl⟩))⟩))
  | crcBit b =>
    rcases whenIdle_next h with ⟨_, rfl⟩ | ⟨hb, h⟩
    · exact .inr (.inl ⟨_, rfl⟩)
    · cases h; exact .inr (.inr (.inr ⟨hb, .inr (.inr (.inl ⟨_, .inr (.inl ⟨b, rfl⟩), rfl⟩))⟩))
  | crcByte b =>
    rcases whenIdle_next h with ⟨_, rfl⟩ | ⟨hb, h⟩
    · exact .inr (.inl ⟨_, rfl⟩)
    · cases h; exact .inr (.inr (.inr ⟨hb, .inr (.inr (.inl ⟨_, .inr (.inr ⟨b, rfl⟩), rfl⟩))⟩))
  | cksInit =>
    rcases whenIdle_next h with ⟨_, rfl⟩ | ⟨hb, h⟩
    · exact .inr (.inl ⟨_, rfl⟩)
    · cases h; exact .inr (.inr (.inr ⟨hb, .inr (.inr (.inr (.inl ⟨_, .inl rfl, rfl⟩)))⟩))
  | cksAdd b =>
    rcases whenIdle_next h with ⟨_, rfl⟩ | ⟨hb, h⟩
    · exact .inr (.inl ⟨_, rfl⟩)
    · cases h; exact .inr (.inr (.inr ⟨hb, .inr (.inr (.inr (.inl ⟨_, .inr ⟨b, rfl⟩, rfl⟩)))⟩))
  | wClear =>
    rcases whenIdle_next h with ⟨_, rfl⟩ | ⟨hb, h⟩
    · exact .inr (.inl ⟨_, rfl⟩)
    · cases h; exact .inr (.inr (.inr ⟨hb, .inr (.inr (.inr (.inr (.inl ⟨_, .inl rfl, rfl⟩))))⟩))
  | wAppend n v =>
    rcases whenIdle_next h with ⟨_, rfl⟩ | ⟨hb, h⟩
    · exact .inr (.inl ⟨_, rfl⟩)
    · split at h
      · exact .inr (.inl ⟨_, raised_next h⟩)
      · cases h; exact .inr (.inr (.inr ⟨hb, .inr (.inr (.inr (.inr (.inl ⟨_, .inr (.inl ⟨n, v, rfl⟩), rfl⟩))))⟩))
  | stuff =>
    rcases whenIdle_next h with ⟨_, rfl⟩ | ⟨hb, h⟩
    · exact .inr (.inl ⟨_, rfl⟩)
    · split at h
      · exact .inr (.inl ⟨_, raised_next h⟩)
      · split at h
        · exact .inr (.inl ⟨_, raised_next h⟩)
        · cases h; exact .inr (.inr (.inr ⟨hb, .inr (.inr (.inr (.inr (.inl ⟨_, .inr (.inr (.inl rfl)), rfl⟩))))⟩))
  | unstuff =>
    rcases whenIdle_next h with ⟨_, rfl⟩ | ⟨hb, h⟩
    · exact .inr (.inl ⟨_, rfl⟩)
    · split at h
      · exact .inr (.inl ⟨_, raised_next h⟩)
      · split at h
        · cases h
          exact .inr (.inr (.inr ⟨hb, .inr (.inr (.inr (.inr (.inl ⟨_, .inr (.inr (.inr (.inl rfl))), rfl⟩))))⟩))
        · exact .inr (.inl ⟨_, raised_next h⟩)
  | frameLoad k =>
    rcases whenIdle_next h with ⟨_, rfl⟩ | ⟨hb, h⟩
    · exact .inr (.inl ⟨_, rfl⟩)
    · split at h
      · exact .inr (.inl ⟨_, raised_next h⟩)
      · cases h
        exact .inr (.inr (.inr ⟨hb, .inr (.inr (.inr (.inr (.inl ⟨_, .inr (.inr (.inr (.inr ⟨k, rfl⟩))), rfl⟩))))⟩))

/-! The port -/

/-- An illegal command word latches an error and does nothing else. -/
theorem illegalCommand_next {v : Word} {e : DecodeError} {s t : State} (h : illegalCommand v e s = .next t) :
    ∃ c, t = raiseError c s := by
  unfold illegalCommand at h
  split at h
  · exact ⟨_, raised_next h⟩
  · cases e <;> exact ⟨_, raised_next h⟩

/-- A CMD write runs the command the word decodes to, or latches an error. -/
theorem commandWrite_next {v : Word} {s t : State} (h : commandWrite v s = .next t) :
    (∃ i, decode v = .ok i ∧ exec i s = .next t) ∨ (∃ e c, decode v = .error e ∧ t = raiseError c s) := by
  unfold commandWrite at h
  split at h
  · exact .inl ⟨_, ‹_›, h⟩
  · obtain ⟨c, hc⟩ := illegalCommand_next h
    exact .inr ⟨_, c, ‹_›, hc⟩

/-- A DRAW write fills the empty slot with a legal draw, or latches an error. -/
theorem drawWrite_next {v : Word} {s t : State} (h : drawWrite v s = .next t) :
    (∃ c, t = raiseError c s) ∨
      (drawField v < drawMod ∧ s.drawFull = false ∧ t = { s with drawVal := (drawField v).setWidth 7, drawFull := true }) := by
  unfold drawWrite at h
  split at h
  · exact .inl ⟨_, raised_next h⟩
  · split at h
    · exact .inl ⟨_, raised_next h⟩
    · cases h; exact .inr ⟨by simp_all, by simp_all, rfl⟩

theorem regAt_cmd : regAt Reg.cmd.addr = some .cmd := by decide

theorem regAt_draw : regAt Reg.draw.addr = some .draw := by decide

theorem regAt_evtData : regAt Reg.evtData.addr = some .evtData := by decide

/-- Every register is found at its own address. -/
theorem regAt_addr (r : Reg) : regAt r.addr = some r := by
  cases r with
  | wWord k => revert k; decide
  | _ => decide

/-- CMD and DRAW stand at one address each (R30). -/
theorem regAt_eq_cmd {a : PortAddr} (h : regAt a = some .cmd) : a = 0#6 := by revert a; decide

theorem regAt_eq_draw {a : PortAddr} (h : regAt a = some .draw) : a = 2#6 := by revert a; decide

/-- A bus write is a command, a draw, or ignored (R62). -/
theorem busWrite_next {a : PortAddr} {v : Word} {s t : State} (h : busWrite a v s = .next t) :
    (a = 0#6 ∧ commandWrite v s = .next t) ∨ (a = 2#6 ∧ drawWrite v s = .next t) ∨ (a ≠ 0#6 ∧ a ≠ 2#6 ∧ t = s) := by
  unfold busWrite at h
  split at h
  · exact .inl ⟨regAt_eq_cmd ‹_›, h⟩
  · exact .inr (.inl ⟨regAt_eq_draw ‹_›, h⟩)
  · rename_i hc hd
    cases h
    exact .inr (.inr ⟨fun ha => hc (ha ▸ regAt_cmd), fun ha => hd (ha ▸ regAt_draw), rfl⟩)

/-! The sequencer -/

theorem sequencerStep_of_enabled {s : State} (h : s.enabled = true) : sequencerStep s = phaseStep s := by
  simp [sequencerStep, h]

theorem sequencerStep_of_not_enabled {s : State} (h : s.enabled = false) : sequencerStep s = s := by
  simp [sequencerStep, h]

/-- R233 as a proposition. -/
theorem State.enabled_iff {s : State} :
    s.enabled = true ↔ s.phase ≠ .idle ∧ s.evq.length + s.phase.need ≤ s.cfg.evtDepth ∧
      (s.phase.drawing = true → s.drawFull = true) := by
  cases hd : s.phase.drawing <;> simp [State.enabled, State.busy, State.noRoom, hd, and_assoc]

/-- No phase's step touches the parameters, the source, the work buffer, the last draw's value, the error latch or the model's own
fields. -/
theorem phaseStep_keeps (s : State) :
    (phaseStep s).cfg = s.cfg ∧ (phaseStep s).bitbuf = s.bitbuf ∧ (phaseStep s).w = s.w ∧
      (phaseStep s).drawVal = s.drawVal ∧ (phaseStep s).err = s.err ∧ (phaseStep s).errcode = s.errcode ∧
      (phaseStep s).sched = s.sched ∧ (phaseStep s).rdata = s.rdata ∧ (phaseStep s).resets = s.resets := by
  unfold phaseStep
  split
  · simp
  · simp [stepBuild]
  · simp [stepCksum]
  · simp [stepSend]
  · unfold stepLoss; dsimp only; split <;> simp
  · unfold stepCorr; dsimp only; split <;> split <;> simp
  · simp [stepRecv]
  · unfold stepAck; dsimp only; split <;> simp
  · simp [stepSummary]
  · simp [stepFinish]

/-! One step -/

/-- A step is the first transition scheduled, or, with none scheduled, the sequencer's. -/
theorem step_next {s t : State} (h : step s = .next t) :
    (s.sched = [] ∧ t = sequencerStep s) ∨
      ∃ tr rest, s.sched = tr :: rest ∧ transition tr { s with sched := rest } = .next t := by
  unfold step at h
  split at h
  · cases h; exact .inl ⟨‹_›, rfl⟩
  · exact .inr ⟨_, _, ‹_›, h⟩

/-- A transition is a read, a command, a draw, an ignored write, a sequencer step or a reset. -/
theorem transition_next {tr : Transition} {s t : State} (h : transition tr s = .next t) :
    (∃ a, tr = .host (.read a) ∧ t = busRead a s) ∨
      (∃ v, tr = .host (.write 0#6 v) ∧ commandWrite v s = .next t) ∨
      (∃ v, tr = .host (.write 2#6 v) ∧ drawWrite v s = .next t) ∨
      (∃ a v, tr = .host (.write a v) ∧ a ≠ 0#6 ∧ a ≠ 2#6 ∧ t = s) ∨
      (tr = .sequencer ∧ t = sequencerStep s) ∨ ∃ d, tr = .reset d ∧ t = resetBlock d s := by
  cases tr with
  | host acc =>
    cases acc with
    | read a => cases h; exact .inl ⟨a, rfl, rfl⟩
    | write a v =>
      rcases busWrite_next h with ⟨rfl, h⟩ | ⟨rfl, h⟩ | ⟨h0, h2, rfl⟩
      · exact .inr (.inl ⟨v, rfl, h⟩)
      · exact .inr (.inr (.inl ⟨v, rfl, h⟩))
      · exact .inr (.inr (.inr (.inl ⟨a, v, rfl, h0, h2, rfl⟩)))
  | sequencer => cases h; exact .inr (.inr (.inr (.inr (.inl ⟨rfl, rfl⟩))))
  | reset d => cases h; exact .inr (.inr (.inr (.inr (.inr ⟨d, rfl, rfl⟩))))

end Sys2Proof.Machine
end

