-- ==== Sys2Proof/Laws/PerInstr.lean ====
section
/-! SUPPORT. The per-instruction families. -/

namespace Sys2Proof.Laws

/-- The two fields of a word built from them (R80). -/
theorem opcField_append (o : BitVec 8) (p : BitVec 24) : opcField (o ++ p) = o := by
  ext i hi
  have h : (o ++ p).getLsbD (24 + i) = o[i] :=
    (BitVec.getLsbD_append ..).trans (by simp [BitVec.getLsbD_eq_getElem hi])
  simpa [opcField] using h

theorem opndField_append (o : BitVec 8) (p : BitVec 24) : opndField (o ++ p) = p := by
  ext i hi
  have h : (o ++ p).getLsbD i = p[i] :=
    (BitVec.getLsbD_append ..).trans (by simp [hi])
  simpa [opndField] using h

/-- The decoder finds every assigned opcode (R83). -/
theorem opcodeOf_code (o : Opcode) : opcodeOf o.code = some o := by cases o <;> decide

/-- The word of a command carries its opcode in OPC and its operand in OPND, and the decoder finds that opcode (R80, R83). -/
def OpcodeField.Statement (i : Instr) : Prop :=
  opcodeOf (opcField (encode i)) = some i.opcode ∧ opndField (encode i) = i.operand

theorem opcodeField_encode (i : Instr) : OpcodeField.Statement i := by
  unfold OpcodeField.Statement encode
  rw [opcField_append, opndField_append]
  exact ⟨opcodeOf_code _, rfl⟩

theorem OpcodeField.nop : OpcodeField.Statement .nop := opcodeField_encode _
theorem OpcodeField.clrErr : OpcodeField.Statement .clrErr := opcodeField_encode _
theorem OpcodeField.srcClear : OpcodeField.Statement .srcClear := opcodeField_encode _
theorem OpcodeField.loadb (byte : Byte) : OpcodeField.Statement (.loadb byte) := opcodeField_encode _
theorem OpcodeField.run : OpcodeField.Statement .run := opcodeField_encode _
theorem OpcodeField.crcInit : OpcodeField.Statement .crcInit := opcodeField_encode _
theorem OpcodeField.crcBit (bit : Bool) : OpcodeField.Statement (.crcBit bit) := opcodeField_encode _
theorem OpcodeField.crcByte (byte : Byte) : OpcodeField.Statement (.crcByte byte) := opcodeField_encode _
theorem OpcodeField.cksInit : OpcodeField.Statement .cksInit := opcodeField_encode _
theorem OpcodeField.cksAdd (byte : Byte) : OpcodeField.Statement (.cksAdd byte) := opcodeField_encode _
theorem OpcodeField.wClear : OpcodeField.Statement .wClear := opcodeField_encode _
theorem OpcodeField.wAppend (n : Nat) (val : BitVec 16) : OpcodeField.Statement (.wAppend n val) := opcodeField_encode _
theorem OpcodeField.stuff : OpcodeField.Statement .stuff := opcodeField_encode _
theorem OpcodeField.unstuff : OpcodeField.Statement .unstuff := opcodeField_encode _
theorem OpcodeField.frameLoad (idx : BitVec 16) : OpcodeField.Statement (.frameLoad idx) := opcodeField_encode _

end Sys2Proof.Laws
end

