-- ==== Sys2Proof/Tests/Slice0.lean ====
section
/-! SUPPORT. The model's own tests: the WellFormed smoke, words written out from the spec's encodings, single steps with the values of
95_test_vectors.md, and for every statement with hypotheses a state and operands that meet them. -/

namespace Sys2Proof.Tests

open Sys2Proof Sys2Proof.Machine

set_option maxRecDepth 8000

/-- The next state, if there is one. -/
def after : Result → Option State
  | .next s => some s
  | .fault _ | .refused _ => none

/-- One step from `s` with the command word `w` written to CMD. -/
def issued (w : Nat) (s : State) : Option State := after (step (s.withFetchWord 32 w))

/-- One step from `s` with `acc` as what the host does. -/
def accessed (acc : Access) (s : State) : Option State := after (step { s with sched := [.host acc] })

/-- One step of the sequencer. -/
def sequenced (s : State) : Option State := after (step { s with sched := [.sequencer] })

/-- What a read of the register at `a` returns to the host. -/
def portRead (a : PortAddr) (s : State) : Option Word := (accessed (.read a) s).map (·.rdata)

/-- The work buffer holds the first `n` bits of `v`, of `k` bits. -/
def withW {k : Nat} (v : BitVec k) (s : State) : State := { s with w := bitsMSB v k }

/-! WellFormed: the count of W_APPEND is 1 … 16 (R82, R97) -/

theorem test_wellFormed_refuses_count_0 : (Instr.wAppend 0 0x1#16).wellFormed = false := by decide
theorem test_wellFormed_refuses_count_17 : (Instr.wAppend 17 0x1#16).wellFormed = false := by decide
theorem test_wellFormed_accepts_count_1_and_16 :
    (Instr.wAppend 1 0#16).wellFormed = true ∧ (Instr.wAppend 16 0xFFFF#16).wellFormed = true := by decide

/-! Decoding, one word at least for every command: OPC in bits 31 to 24 (R83), the fields of R82 below -/

theorem test_decode_nop : decodeTableWord 32 0x00000000 = some .nop := by decide
theorem test_decode_clrErr : decodeTableWord 32 0x01000000 = some .clrErr := by decide
theorem test_decode_srcClear : decodeTableWord 32 0x10000000 = some .srcClear := by decide
theorem test_decode_loadb : decodeTableWord 32 0x11000041 = some (.loadb 0x41#8) := by decide
theorem test_decode_run : decodeTableWord 32 0x12000000 = some .run := by decide
theorem test_decode_crcInit : decodeTableWord 32 0x20000000 = some .crcInit := by decide
theorem test_decode_crcBit :
    decodeTableWord 32 0x21000000 = some (.crcBit false) ∧ decodeTableWord 32 0x21000001 = some (.crcBit true) := by decide
theorem test_decode_crcByte : decodeTableWord 32 0x220000A5 = some (.crcByte 0xA5#8) := by decide
theorem test_decode_cksInit : decodeTableWord 32 0x30000000 = some .cksInit := by decide
theorem test_decode_cksAdd : decodeTableWord 32 0x310000CE = some (.cksAdd 0xCE#8) := by decide
theorem test_decode_wClear : decodeTableWord 32 0x40000000 = some .wClear := by decide
/-- 0100 0001 0000 0011 1111 1111 1111 0101: OPC 0x41, NM1 3, VAL 0xFFF5. -/
theorem test_decode_wAppend : decodeTableWord 32 0b01000001000000111111111111110101 = some (.wAppend 4 0xFFF5#16) := by decide
theorem test_decode_wAppend_longest : decodeTableWord 32 0x410FABCD = some (.wAppend 16 0xABCD#16) := by decide
theorem test_decode_stuff : decodeTableWord 32 0x42000000 = some .stuff := by decide
theorem test_decode_unstuff : decodeTableWord 32 0x43000000 = some .unstuff := by decide
/-- 0100 0100 0000 0000 1000 0000 0000 0001: OPC 0x44, IDX 0x8001. -/
theorem test_decode_frameLoad : decodeTableWord 32 0b01000100000000001000000000000001 = some (.frameLoad 0x8001#16) := by decide
/-- A reserved operand bit of each mask, and the opcodes beside the assigned ones (R82, R84). -/
theorem test_decode_rejects :
    decode 0x00800000#32 = .error .badArg ∧ decode 0x11000100#32 = .error .badArg ∧ decode 0x21000002#32 = .error .badArg ∧
      decode 0x41100000#32 = .error .badArg ∧ decode 0x44010000#32 = .error .badArg ∧ decode 0x0F000000#32 = .error .badCmd ∧
      decode 0x13000000#32 = .error .badCmd ∧ decode 0x23000000#32 = .error .badCmd ∧ decode 0x32000000#32 = .error .badCmd ∧
      decode 0x45000000#32 = .error .badCmd ∧ decode 0xFF000000#32 = .error .badCmd := by decide
theorem test_encode :
    encode (.wAppend 8 0x7E#16) = 0x4107007E#32 ∧ encode (.frameLoad 1#16) = 0x44000001#32 ∧
      encode (.crcBit true) = 0x21000001#32 := by decide

/-! One step for each command, with the values of the tables V1 to V8 -/

theorem test_nop : (issued 0x00000000 State.reset).map (·.status) = some 0x00000000#32 := by decide
theorem test_nop_badArg : (issued 0x00000001 State.reset).map (·.status) = some 0x00000304#32 := by decide
theorem test_clrErr : (issued 0x01000000 { State.reset with err := true, errcode := 3#4 }).map (·.status) = some 0x00000000#32 := by
  decide
theorem test_srcClear :
    (issued 0x10000000 { State.reset with bitbuf := bitsMSB 0x41FF#16 16 }).map (·.bitbuf) = some [] := by decide
theorem test_loadb :
    (issued 0x11000041 State.reset).map (·.bitbuf) = some [false, true, false, false, false, false, false, true] := by decide
theorem test_loadb_appends :
    (issued 0x110000FF { State.reset with bitbuf := bitsMSB 0x41#8 8 }).map (·.bitbuf) =
      some [false, true, false, false, false, false, false, true, true, true, true, true, true, true, true, true] := by decide
/-- 12 bytes are loaded and MAX_BITS is 100: 96 + 8 > 100. -/
def nearlyFull : State := { State.reset with cfg := { Config.specDefault with maxDataFrames := 1 }, bitbuf := zeros 96 }
theorem test_loadb_overflow :
    (issued 0x11000000 nearlyFull).map (fun t => (t.status, t.bitbuf.length)) = some (0x00000404#32, 96) := by decide
theorem test_crcInit : (issued 0x20000000 { State.reset with crc := 0x1234#16 }).map (·.crc) = some 0xFFFF#16 := by decide
theorem test_crcBit :
    (issued 0x21000001 { State.reset with crc := 0x8000#16 }).map (·.crc) = some 0x0000#16 ∧
      (issued 0x21000000 { State.reset with crc := 0x8000#16 }).map (·.crc) = some 0x1021#16 ∧
      (issued 0x21000000 State.reset).map (·.crc) = some 0xEFDF#16 := by decide
theorem test_crcBit_1234 : (issued 0x21000001 { State.reset with crc := 0x1234#16 }).map (·.crc) = some 0x3449#16 := by decide
theorem test_crcByte : (issued 0x22000041 State.reset).map (·.crc) = some 0xB915#16 := by decide
theorem test_crcByte_a5 : (issued 0x220000A5 { State.reset with crc := 0x0000#16 }).map (·.crc) = some 0xE54F#16 := by decide
theorem test_cksInit : (issued 0x30000000 { State.reset with sum := 0x67#8 }).map (·.sum) = some 0#8 := by decide
theorem test_cksAdd :
    (issued 0x31000080 { State.reset with sum := 0x80#8 }).map (·.sum) = some 0x01#8 ∧
      (issued 0x310000FF { State.reset with sum := 0xFF#8 }).map (·.sum) = some 0xFF#8 := by decide
theorem test_cksAdd_views :
    (issued 0x31000098 { State.reset with sum := 0xCE#8 }).map (fun t => (t.sum, cksResult t.sum, cksDiag t.sum)) =
      some (0x67#8, 0x98#8, 0x068#32) := by decide
theorem test_wClear : (issued 0x40000000 (withW 0xABCD#16 State.reset)).map (·.w) = some [] := by decide
/-- Only VAL[3:0] of 0xFFF5 is used. -/
theorem test_wAppend : (issued 0x4103FFF5 State.reset).map (·.w) = some [false, true, false, true] := by decide
theorem test_wAppend_wlenErr :
    (issued 0x41070000 { State.reset with w := zeros 250 }).map (fun t => (t.status, t.w.length)) = some (0x00000504#32, 250) := by
  decide
theorem test_stuff :
    (issued 0x42000000 (withW 0x7EFFFF7E#32 State.reset)).map (fun t => (t.w.length, readReg (.wWord 0) t, readReg (.wWord 1) t)) =
      some (35, 0x7EFBEFAF#32, 0xC0000000#32) := by decide
theorem test_stuff_too_short : (issued 0x42000000 { State.reset with w := zeros 15 }).map (·.status) = some 0x00000304#32 := by
  decide
theorem test_unstuff :
    (issued 0x43000000 (withW 0b01111110111110111110111110101111110#35 State.reset)).map (fun t => (t.w.length, readReg (.wWord 0) t)) =
      some (32, 0x7EFFFF7E#32) := by decide
theorem test_unstuff_verdicts :
    (issued 0x43000000 (withW 0x7EFC7E#24 State.reset)).map (·.status) = some 0x00000604#32 ∧
      (issued 0x43000000 (withW 0x7E1F7E#24 State.reset)).map (·.status) = some 0x00000704#32 := by decide
theorem test_frameLoad_none : (issued 0x44000000 State.reset).map (·.status) = some 0x00000304#32 := by decide
theorem test_run_empty :
    (issued 0x12000000 { State.reset with drawFull := true, drawVal := 42 }).map
      (fun t => (t.phase, t.ndata, t.drawFull, t.stats.frames)) = some (.cksum, 0#17, false, 1#32) := by decide
theorem test_run_13_bytes :
    (issued 0x12000000 { State.reset with bitbuf := zeros 104 }).map (fun t => (t.phase, t.ndata, t.stats.frames)) =
      some (.build, 2#17, 3#32) := by decide

/-! The port, the draw slot and the errors (V5, V7, V8) -/

theorem test_draw_accepted :
    (accessed (.write 2 0x105#32) State.reset).map (fun t => (t.drawFull, t.drawVal)) = some (true, 5#7) := by decide
theorem test_draw_errors :
    (accessed (.write 2 0x164#32) State.reset).map (·.status) = some 0x00000804#32 ∧
      (accessed (.write 2 7#32) { State.reset with drawFull := true, drawVal := 42 }).map (fun t => (t.errcode, t.drawVal)) =
        some (9#4, 42#7) := by decide
theorem test_first_error_wins :
    (issued 0x31000100 { State.reset with err := true, errcode := 2#4 }).map (·.status) = some 0x00000204#32 := by decide
theorem test_busy_is_checked_first : (issued 0xFF000000 { State.reset with phase := .loss }).map (·.errcode) = some 1#4 := by decide
theorem test_status_of_loss_phase : State.status { State.reset with phase := .loss, drawFull := true } = 0x00004011#32 := by decide
theorem test_reset_reads :
    portRead 1 State.reset = some 0#32 ∧ portRead 7 State.reset = some 0xFFFF#32 ∧ portRead 9 State.reset = some 0xFF#32 ∧
      portRead 10 State.reset = some 1#32 ∧ portRead 12 State.reset = some 0#32 := by decide

/-! The sequencer, one step a phase (V6, and the event words of P3 and P4) -/

/-- A run over eight zero bytes, its data frame and its control frame built. -/
def eightZeros : State :=
  { State.reset with
    bitbuf := zeros 64
    ndata := 1
    nframes := 2
    ftab := [(0, sourceFrame (zeros 64) 0), (1, sourceControlFrame 0xFF#8 (zeros 64) 1)]
    ctab := [(0, sourceCrc (zeros 64) 0)]
    crc := sourceCrc (zeros 64) 0
    sum := sourceSum (zeros 64) 1
    stats := { Stats.zero with frames := 2 } }

/-- That run in phase `p`, with a draw in the slot. -/
def delivering (p : Phase) (fidx : BitVec 17) (att draw : BitVec 7) : State :=
  { eightZeros with phase := p, fidx := fidx, att := att, drawFull := true, drawVal := draw }

/-- What V6 shows of a step. -/
def shown (t : State) : List Word × Phase × BitVec 17 × BitVec 7 := (t.evq, t.phase, t.fidx, t.att)

theorem test_build :
    (sequenced { delivering .build 0 0 0 with nframes := 0, ftab := [], ctab := [] }).map
      (fun t => (t.evq, t.phase, t.ctab, t.nframes)) =
      some ([0x11000000#32, 0x0000CE98#32], .cksum, [(0, 0xCE98#16)], 1#32) := by decide
theorem test_cksum :
    (sequenced { delivering .cksum 0 0 0 with nframes := 1, ftab := [(0, [])] }).map (fun t => (t.evq, t.phase, t.sum, t.nframes)) =
      some ([0x20006898#32], .send, 0x67#8, 2#32) := by decide
theorem test_send :
    (sequenced (delivering .send 0 0 0)).map shown = some ([0x31000000#32, 0x00000001#32], .loss, 0, 1) ∧
      (sequenced (delivering .send 1 0 0)).map shown = some ([0x31080000#32, 0x00010001#32], .corr, 1, 1) := by decide
theorem test_loss :
    (sequenced (delivering .loss 0 1 5)).map shown = some ([0x31100000#32, 0x00000001#32], .send, 0, 1) ∧
      (sequenced (delivering .loss 0 2 50)).map shown = some ([], .corr, 0, 2) := by decide
theorem test_loss_at_cap :
    (sequenced (delivering .loss 0 100 0)).map (fun t => (shown t, t.caphit, t.stats.abandoned)) =
      some (([0x31100000#32, 0x00000064#32], .send, 1, 0), true, 1#32) := by decide
theorem test_corr :
    (sequenced (delivering .corr 0 2 10)).map shown = some ([0x31A00000#32, 0x00000002#32], .recv, 0, 2) ∧
      (sequenced (delivering .corr 0 2 20)).map shown = some ([], .recv, 0, 2) := by decide
theorem test_corr_control :
    (sequenced (delivering .corr 1 1 3)).map (fun t => (shown t, t.stats.csCorrupt)) =
      some (([0x31A80000#32, 0x00010001#32], .recv, 1, 1), 1#32) := by decide
theorem test_recv : (sequenced (delivering .recv 0 2 0)).map shown = some ([0x31B00000#32, 0x00000002#32], .ack, 0, 2) := by decide
theorem test_ack :
    (sequenced (delivering .ack 0 2 80)).map (fun t => (shown t, t.stats.maxAtt, t.stats.maxFrame)) =
      some (([0x31500000#32, 0x00000002#32], .send, 1, 0), 2#32, 0#32) := by decide
theorem test_ack_control :
    (sequenced (delivering .ack 1 1 14)).map shown = some ([0x31480000#32, 0x00010001#32], .send, 1, 1) ∧
      (sequenced (delivering .ack 1 2 99)).map shown = some ([0x31580000#32, 0x00010002#32], .summary, 2, 0) := by decide
theorem test_summary_and_finish :
    (sequenced (delivering .summary 2 0 0)).map (·.evq) = some [0x48000000#32, 2, 0, 0, 0, 0, 0, 0, 0] ∧
      (sequenced (delivering .finish 2 0 0)).map (fun t => (t.evq, t.phase, t.done)) = some ([0x50000000#32], .idle, true) := by
  decide

/-! The written forms (R97, and the lines of P1 to P3) -/

theorem test_assembler :
    assembleLine "W_APPEND 8, 0x7E" = some (.wAppend 8 0x7E#16) ∧ assembleLine "CRC_BYTE 0b110001" = some (.crcByte 0x31#8) ∧
      assembleLine "UNSTUFF" = some .unstuff ∧ assembleLine "LOADB 256" = none ∧ assembleLine "W_APPEND 17, 0" = none := by decide


/-! The states of the witnesses -/

/-- V4: the frames of the eight zero bytes, as words. -/
theorem test_frames_of_eight_zeros :
    ((eightZeros.ftab.read 0).map fun f => (f.length, [0, 1, 5].map fun k => wordOfBits (f.drop (32 * k)))) =
        some (164, [0x7E010200#32, 0x00000000#32, 0xE0000000#32]) ∧
      ((eightZeros.ftab.read 1).map fun f => (f.length, [0, 1].map fun k => wordOfBits (f.drop (32 * k)))) =
        some (49, [0x7E0102FB#32, 0xCC3F0000#32]) ∧
      eightZeros.crc = 0xCE98#16 ∧ eightZeros.sum = 0x67#8 := by decide

theorem eightZeros_storage : eightZeros.StorageInv :=
  ⟨by decide, by decide, by decide, by decide, by decide, by decide, by decide, by decide, by decide, by decide, by decide,
    by decide, by decide, by decide⟩

theorem delivering_storage (p : Phase) (f : BitVec 17) (a d : BitVec 7) (hd : d < 100#7) : (delivering p f a d).StorageInv :=
  { eightZeros_storage with drawLegal := fun _ => hd }

theorem eightZeros_count : eightZeros.ndata.toNat = frameCount eightZeros.bitbuf.length := by decide

theorem delivering_inv (p : Phase) (f : BitVec 17) (a d : BitVec 7) (hd : d < 100#7) (hc : (delivering p f a d).controlInv) :
    (delivering p f a d).Inv :=
  ⟨delivering_storage p f a d hd, hc, fun _ => ⟨eightZeros_count, rfl⟩⟩

theorem delivering_frames (p : Phase) (f : BitVec 17) (a d : BitVec 7) : (delivering p f a d).FramesInv :=
  ⟨fun _ i h => by
      have : i = 0 := by have : i < 1 := h; omega
      subst this; rfl,
    fun _ i h => by
      have : i = 0 := by have : i < 1 := h; omega
      subst this; rfl,
    fun _ => rfl, fun _ _ => ⟨rfl, rfl⟩⟩

/-- P4's end: the run over the eight zero bytes is over, with one loss, one lost acknowledgment and two corruptions. -/
def ended : State :=
  { eightZeros with
    fidx := 2
    done := true
    stats := { frames := 2, attempts := 4, lost := 1, corrupt := 1, ackLost := 1, csCorrupt := 1, maxFrame := 0, maxAtt := 2,
               abandoned := 0 } }

theorem ended_inv : ended.Inv :=
  ⟨{ eightZeros_storage with }, show ended.nframes.toNat ≤ ended.ndata.toNat + 1 by decide, fun h => absurd h (by decide)⟩

theorem ended_stats : ended.StatsInv :=
  ⟨by decide, by decide, by decide, by decide, by decide, by decide, by decide, by decide, by decide, by decide, by decide,
    by decide⟩

/-- The control frame's 100th attempt is under way, every acknowledgment of it lost, after a data frame given up (a run as in P5 and
P5b). -/
def atCap : State :=
  { delivering .ack 1 100 14 with
    caphit := true
    stats := { frames := 2, attempts := 200, lost := 100, corrupt := 0, ackLost := 99, csCorrupt := 0, maxFrame := 0,
               maxAtt := 100, abandoned := 1 } }

theorem atCap_inv : atCap.Inv :=
  ⟨{ delivering_storage .ack 1 100 14 (by decide) with }, ⟨by decide, by decide, by decide, by decide⟩, fun _ => ⟨eightZeros_count, rfl⟩⟩

theorem atCap_stats : atCap.StatsInv :=
  ⟨by decide, by decide, by decide, by decide, by decide, by decide, by decide, by decide, by decide, by decide, by decide,
    by decide⟩

/-- Both frames of P4 took two attempts, and the earlier one wins the tie. -/
theorem ended_attempts : ended.AttemptsInv fun f => if f < 2 then 2 else 0 :=
  ⟨by decide, by decide, fun f h => if_neg (show ¬ f < 2 from Nat.not_lt.2 (Nat.le_of_lt h)), by decide, by decide, by decide,
    by decide⟩

theorem atCap_attempts : atCap.AttemptsInv fun f => if f < 2 then 100 else 0 :=
  ⟨by decide, by decide, fun f h => if_neg (show ¬ f < 2 from Nat.not_lt.2 h), by decide, by decide, by decide, by decide⟩

/-- The run of the eight zero bytes before its BUILD step, and before its CKSUM step. -/
def building : State := { delivering .build 0 0 0 with nframes := 0, ftab := [], ctab := [], crc := 0xFFFF#16, sum := 0 }
def summing : State := { delivering .cksum 0 0 0 with nframes := 1, ftab := [(0, sourceFrame (zeros 64) 0)], sum := 0 }

theorem building_inv : building.Inv :=
  ⟨⟨by decide, by decide, by decide, by decide, by decide, by decide, by decide, by decide, by decide, by decide, by decide,
    by decide, by decide, by decide⟩, ⟨by decide, by decide, by decide⟩, fun _ => ⟨eightZeros_count, rfl⟩⟩

theorem summing_inv : summing.Inv :=
  ⟨⟨by decide, by decide, by decide, by decide, by decide, by decide, by decide, by decide, by decide, by decide, by decide,
    by decide, by decide, by decide⟩, ⟨by decide, by decide, by decide⟩, fun _ => ⟨eightZeros_count, rfl⟩⟩

/-! Witnesses: for each statement with hypotheses, a state and operands that meet all of them, for each clause -/

theorem witness_DecodeOfEncodeIsIdentity : (Instr.wAppend 16 0xFFFF#16).wellFormed = true := by decide

theorem witness_EncodeOfDecodeIsIdentity : decode 0x440FFFFF#32 = .error .badArg ∧ decode 0x4400FFFF#32 = .ok (.frameLoad 0xFFFF#16) := by
  decide

/-- An idle state; the ends of every range of unassigned opcodes; a legal word. -/
theorem witness_IllegalWordsRaiseAndDoNothingElse :
    State.reset.busy = false ∧ decode 0x02FFFFFF#32 = .error .badCmd ∧ decode 0x0FFFFFFF#32 = .error .badCmd ∧
      decode 0x13000000#32 = .error .badCmd ∧ decode 0x1F000000#32 = .error .badCmd ∧ decode 0x23000000#32 = .error .badCmd ∧
      decode 0x2F000000#32 = .error .badCmd ∧ decode 0x32000000#32 = .error .badCmd ∧ decode 0x3F000000#32 = .error .badCmd ∧
      decode 0x45000000#32 = .error .badCmd ∧ decode 0xFF000000#32 = .error .badCmd ∧
      decode 0x110000FF#32 = .ok (.loadb 0xFF#8) := by decide

/-- The lowest reserved bit of every opcode's mask. -/
theorem witness_IllegalWords_reserved :
    decode 0x00000001#32 = .error .badArg ∧ decode 0x01000001#32 = .error .badArg ∧ decode 0x10000001#32 = .error .badArg ∧
      decode 0x11000100#32 = .error .badArg ∧ decode 0x12000001#32 = .error .badArg ∧ decode 0x20000001#32 = .error .badArg ∧
      decode 0x21000002#32 = .error .badArg ∧ decode 0x22000100#32 = .error .badArg ∧ decode 0x30000001#32 = .error .badArg ∧
      decode 0x31000100#32 = .error .badArg ∧ decode 0x40000001#32 = .error .badArg ∧ decode 0x41100000#32 = .error .badArg ∧
      decode 0x42000001#32 = .error .badArg ∧ decode 0x43000001#32 = .error .badArg ∧ decode 0x44010000#32 = .error .badArg := by
  decide

/-- A busy state with a word that is refused and one that is not; an idle state with a word of each outcome. -/
theorem witness_CommandChecksInOrder :
    (delivering .loss 0 1 5).busy = true ∧ opcField 0xFF000000#32 ∉ [0x00#8, 0x01#8] ∧ opcField 0x01FFFFFF#32 ∈ [0x00#8, 0x01#8] ∧
      State.reset.busy = false ∧ opcodeOf (opcField 0x02000000#32) = none ∧
      opndField 0x31000100#32 &&& 0xFFFF00#24 ≠ 0#24 ∧ opndField 0x310000FF#32 &&& 0xFFFF00#24 = 0#24 := by decide

theorem witness_StepRunsDecodedCommand :
    decode 0x4107007E#32 = .ok (.wAppend 8 0x7E#16) ∧
      (State.reset.withFetchWord 32 0x4107007E).sched = .host (.write 0#6 0x4107007E#32) :: [] := by decide

theorem witness_StepPerformsScheduledTransition :
    State.reset.sched = [] ∧ State.reset.enabled = false ∧
      { State.reset with sched := [.sequencer] }.sched = .sequencer :: [] ∧
      { State.reset with sched := [.host (.read 3#6)] }.sched = .host (.read 3#6) :: [] ∧
      { State.reset with sched := [.host (.write 2#6 99#32)] }.sched = .host (.write 2#6 99#32) :: [] ∧
      { State.reset with sched := [.reset none] }.sched = .reset none :: [] := by decide

theorem witness_PortWritesActOnlyAtCmdAndDraw :
    (1#6 : PortAddr) ≠ 0#6 ∧ (1#6 : PortAddr) ≠ 2#6 ∧ (63#6 : PortAddr) ≠ 0#6 ∧ (63#6 : PortAddr) ≠ 2#6 := by decide

theorem witness_OnlyEventDataReadPops :
    portRead 7#6 State.reset = some 0xFFFF#32 ∧ portRead 17#6 ended = some 4#32 ∧
    { State.reset with evq := [0x20006898#32, 0x50000000#32] }.evq = 0x20006898#32 :: [0x50000000#32] ∧ State.reset.evq = [] ∧
      (4#6 : PortAddr) ≠ 3#6 := by decide

/-- The ends of each range of reserved addresses. -/
theorem witness_RegisterMapReads :
    ∀ a ∈ [12#6, 15#6, 25#6, 31#6, 40#6, 63#6], regAt a = none ∧ readWord a ended = 0#32 := by decide

/-- A state in each phase. -/
theorem witness_StatusFields :
    (delivering .idle 0 0 0).phase = .idle ∧ (delivering .build 0 0 0).phase = .build ∧ (delivering .cksum 0 0 0).phase = .cksum ∧
      (delivering .send 0 0 0).phase = .send ∧ (delivering .loss 0 1 0).phase = .loss ∧ (delivering .corr 0 1 0).phase = .corr ∧
      (delivering .recv 0 1 0).phase = .recv ∧ (delivering .ack 0 1 0).phase = .ack ∧
      (delivering .summary 2 0 0).phase = .summary ∧ (delivering .finish 2 0 0).phase = .finish := by decide

/-- The last bit of W_WORD7 of a full work buffer, and the first bit of an empty one. -/
theorem witness_WorkBufferReadout :
    (readWord (BitVec.ofNat 6 (32 + 7)) { State.reset with w := zeros 255 ++ [true] }).getLsbD (31 - 31) = true ∧
      (readWord (BitVec.ofNat 6 (32 + 0)) State.reset).getLsbD (31 - 0) = false := by decide

/-- A step that latches the first error, a step that clears it, and one that keeps it. -/
theorem witness_ErrorLatchIsPreciseStickyFirstWins :
    State.reset.err = false ∧ (issued 0x02000000 State.reset).map (fun t => (t.err, t.errcode)) = some (true, 2#4) ∧
      (issued 0x01000000 { State.reset with err := true, errcode := 2#4 }).map (·.err) = some false ∧
      ({ State.reset with err := true, errcode := 2#4 }.withFetchWord 32 0x01000000).cause = .command .clrErr ∧
      (issued 0x11000000 { State.reset with err := true, errcode := 2#4 }).map (fun t => (t.errcode, t.bitbuf.length)) =
        some (2#4, 8) ∧
      (issued 0x11000000 State.reset).map (·.err) = some false ∧ State.reset.busy = false := by decide

/-- A busy state with an empty slot; the least refused word; the largest draw. -/
theorem witness_BusyBlocksCommands :
    (delivering .send 0 0 0).busy = true ∧ { delivering .send 0 0 0 with drawFull := false }.drawFull = false ∧
      2 ^ 25 ≤ (0x02000000#32).toNat ∧ (99#32).toNat % 256 < 100 ∧ (1#6 : PortAddr) ≠ 3#6 := by decide

theorem witness_ControlCommands :
    (0x01000001#32).toNat / 2 ^ 24 ≤ 1 ∧ (0x01000001#32).toNat % 2 ^ 24 ≠ 0 ∧ (0x00800000#32).toNat / 2 ^ 24 ≤ 1 ∧
      (0x00800000#32).toNat % 2 ^ 24 ≠ 0 := by decide

/-- LOADB one bit below, at, and past the capacity: 88 + 8 and 92 + 8 fit in 100, 96 + 8 does not. -/
theorem witness_BitSourceCommands :
    nearlyFull.busy = false ∧ nearlyFull.bitbuf.length + 8 > 100 * nearlyFull.cfg.maxDataFrames ∧
      { nearlyFull with bitbuf := zeros 92 }.bitbuf.length + 8 ≤ 100 * nearlyFull.cfg.maxDataFrames ∧
      (delivering .loss 0 1 5).busy = true ∧ (0x10000001#32).toNat / 2 ^ 24 = 0x10 ∧ (0x10000001#32).toNat % 2 ^ 24 ≠ 0 ∧
      (0x11000100#32).toNat / 2 ^ 24 = 0x11 ∧ (0x11000100#32).toNat % 2 ^ 24 / 2 ^ 8 ≠ 0 := by decide

theorem witness_CrcCommands :
    State.reset.busy = false ∧ (delivering .loss 0 1 5).busy = true ∧
      (0x20000001#32).toNat / 2 ^ 24 = 0x20 ∧ (0x20000001#32).toNat % 2 ^ 24 ≠ 0 ∧
      (0x21000002#32).toNat / 2 ^ 24 = 0x21 ∧ (0x21000002#32).toNat % 2 ^ 24 / 2 ≠ 0 ∧
      (0x22000100#32).toNat / 2 ^ 24 = 0x22 ∧ (0x22000100#32).toNat % 2 ^ 24 / 2 ^ 8 ≠ 0 := by decide

theorem witness_ChecksumCommands :
    State.reset.busy = false ∧ (delivering .loss 0 1 5).busy = true ∧
      (0x30000001#32).toNat / 2 ^ 24 = 0x30 ∧ (0x30000001#32).toNat % 2 ^ 24 ≠ 0 ∧
      (0x31000100#32).toNat / 2 ^ 24 = 0x31 ∧ (0x31000100#32).toNat % 2 ^ 24 / 2 ^ 8 ≠ 0 := by decide

/-- W_APPEND up to bit 256 exactly, and one past it. -/
theorem witness_WorkBufferCommands :
    State.reset.busy = false ∧ { State.reset with w := zeros 240 }.w.length + 16 ≤ 256 ∧
      { State.reset with w := zeros 256 }.w.length + 1 > 256 ∧ (delivering .loss 0 1 5).busy = true ∧
      (0x40000001#32).toNat / 2 ^ 24 = 0x40 ∧ (0x40000001#32).toNat % 2 ^ 24 ≠ 0 ∧
      (0x41100000#32).toNat / 2 ^ 24 = 0x41 ∧ (0x41100000#32).toNat % 2 ^ 24 / 2 ^ 20 ≠ 0 := by decide

/-- Fewer than 16 bits, exactly 16, a body that still fits in 256 bits, and one that does not. -/
theorem witness_StuffCommand :
    { State.reset with w := zeros 15 }.w.length < 16 ∧
      { State.reset with w := zeros 16 }.w = zeros 8 ++ [] ++ zeros 8 ∧ 16 + (stuffBody []).length ≤ 256 ∧
      { State.reset with w := zeros 256 }.w = zeros 8 ++ zeros 240 ++ zeros 8 ∧ 16 + (stuffBody (zeros 240)).length ≤ 256 ∧
      16 + (stuffBody (zeros 235 ++ [true, true, true, true, true])).length > 256 ∧ State.reset.busy = false ∧
      (delivering .loss 0 1 5).busy = true ∧ (0x42000001#32).toNat / 2 ^ 24 = 0x42 ∧ (0x42000001#32).toNat % 2 ^ 24 ≠ 0 := by decide

/-- A body of each verdict, in a work buffer of head, body and tail. -/
theorem witness_UnstuffCommand :
    (withW 0x7EFC7E#24 State.reset).w = bitsMSB 0x7E#8 8 ++ bitsMSB 0xFC#8 8 ++ bitsMSB 0x7E#8 8 ∧
      (bitsMSB 0x7E#8 8).length = 8 ∧ unstuffBody (bitsMSB 0xFC#8 8) = .error .viol ∧
      unstuffBody (bitsMSB 0x1F#8 8) = .error .trunc ∧
      unstuffBody (bitsMSB 0b1111101#7 7) = .ok (bitsMSB 0b111111#6 6) ∧ unstuffBody [] = .ok [] ∧
      { State.reset with w := zeros 15 }.w.length < 16 ∧ State.reset.busy = false ∧ (delivering .loss 0 1 5).busy = true ∧
      (0x43000001#32).toNat / 2 ^ 24 = 0x43 ∧ (0x43000001#32).toNat % 2 ^ 24 ≠ 0 := by decide

/-- The last stored frame, and the index just past it. -/
theorem witness_FrameLoadCommand :
    ended.busy = false ∧ (1#16).toNat < ended.nframes.toNat ∧ (ended.ftab.read (1#16).toNat).isSome = true ∧
      ended.nframes.toNat ≤ (2#16).toNat ∧ (delivering .loss 0 1 5).busy = true ∧
      (0x44010000#32).toNat / 2 ^ 24 = 0x44 ∧ (0x44010000#32).toNat % 2 ^ 24 / 2 ^ 16 ≠ 0 := by decide

theorem witness_RunCommand :
    ended.StorageInv ∧ ended.busy = false ∧ ended.err = false ∧ { ended with err := true }.err = true ∧
      (delivering .loss 0 1 5).busy = true ∧ (0x12000001#32).toNat / 2 ^ 24 = 0x12 ∧ (0x12000001#32).toNat % 2 ^ 24 ≠ 0 :=
  ⟨ended_inv.storage, by decide, by decide, by decide, by decide, by decide, by decide⟩

theorem witness_UnstuffInvertsStuff : 16 ≤ (zeros 16).length := by decide

theorem witness_UnstuffAcceptsOnlyStuffedBodies :
    unstuffBody (bitsMSB 0b1111101#7 7) = .ok (bitsMSB 0b111111#6 6) ∧
      bitsMSB 0b1111101#7 7 = stuffBody (bitsMSB 0b111111#6 6) := by decide

theorem witness_FrameLayout : (payload (zeros 64) 0).length = 100 ∧ 99 < 100 := by decide

theorem witness_UnstuffCommandUndoesStuffCommand :
    (withW 0x7EFFFF7E#32 State.reset).busy = false ∧ 16 ≤ (withW 0x7EFFFF7E#32 State.reset).w.length ∧
      (stuffFrame (withW 0x7EFFFF7E#32 State.reset).w).length ≤ 256 := by decide

/-- The draws 99 and 100 on an empty slot, and 99 on a full one; a step that empties the slot. -/
theorem witness_DrawWriteRule :
    (0xFFFFFF63#32).toNat % 256 < 100 ∧ 100 ≤ (0x00000164#32).toNat % 256 ∧ State.reset.drawFull = false ∧
      (delivering .loss 0 1 5).drawFull = true ∧ (sequenced (delivering .loss 0 1 5)).map (·.drawFull) = some false ∧
      (delivering .loss 0 1 5).cause = .sequencer .loss := by decide

/-- Phases that are enabled, that lack a draw, and that lack room, at the last word of room. -/
theorem witness_EnablingRule :
    (delivering .loss 0 1 5).phase ≠ .idle ∧ (delivering .loss 0 1 5).enabled = true ∧
      { delivering .loss 0 1 5 with drawFull := false }.enabled = false ∧
      { delivering .send 0 0 5 with evq := List.replicate 30 0#32 }.enabled = true ∧
      { delivering .send 0 0 5 with evq := List.replicate 31 0#32 }.enabled = false ∧
      { delivering .summary 2 0 5 with evq := List.replicate 23 0#32 }.enabled = true ∧
      { delivering .finish 2 0 5 with evq := List.replicate 32 0#32 }.enabled = false := by decide

theorem witness_BuildStep : building.Inv ∧ building.enabled = true ∧ building.phase = .build := ⟨building_inv, by decide, by decide⟩

theorem witness_CksumStep : summing.Inv ∧ summing.enabled = true ∧ summing.phase = .cksum := ⟨summing_inv, by decide, by decide⟩

/-- The last attempt of a frame may start at ATT 99. -/
theorem witness_SendStep :
    (delivering .send 0 99 0).Inv ∧ (delivering .send 0 99 0).enabled = true ∧ (delivering .send 0 99 0).phase = .send :=
  ⟨delivering_inv _ _ _ _ (by decide) ⟨by decide, by decide, by decide⟩, by decide, rfl⟩

/-- The draws 9 and 10. -/
theorem witness_LossStep :
    ((delivering .loss 0 100 9).Inv ∧ (delivering .loss 0 100 9).enabled = true ∧ (delivering .loss 0 100 9).drawVal.toNat < 10) ∧
      (delivering .loss 0 1 10).Inv ∧ (delivering .loss 0 1 10).enabled = true ∧ 10 ≤ (delivering .loss 0 1 10).drawVal.toNat :=
  ⟨⟨delivering_inv _ _ _ _ (by decide) ⟨by decide, by decide, by decide, by decide⟩, by decide, by decide⟩,
    delivering_inv _ _ _ _ (by decide) ⟨by decide, by decide, by decide, by decide⟩, by decide, by decide⟩

theorem corr_control : (delivering .corr 0 2 0).controlInv ∧ (delivering .corr 1 2 0).controlInv :=
  ⟨⟨by decide, by decide, by decide, by decide⟩, ⟨by decide, by decide, by decide, by decide⟩⟩

/-- The draws 19 and 20 for a data frame, 4 and 5 for the control frame. -/
theorem witness_CorrStep :
    (∀ d : BitVec 7, d < 100#7 → (delivering .corr 0 2 d).Inv ∧ (delivering .corr 1 2 d).Inv) ∧
      (delivering .corr 0 2 19).fidx < (delivering .corr 0 2 19).ndata ∧ (delivering .corr 0 2 19).drawVal.toNat < 20 ∧
      20 ≤ (delivering .corr 0 2 20).drawVal.toNat ∧ (delivering .corr 1 2 4).fidx = (delivering .corr 1 2 4).ndata ∧
      (delivering .corr 1 2 4).drawVal.toNat < 5 ∧ 5 ≤ (delivering .corr 1 2 5).drawVal.toNat ∧
      (delivering .corr 0 2 19).enabled = true ∧ (delivering .corr 0 2 20).enabled = true ∧
      (delivering .corr 1 2 4).enabled = true ∧ (delivering .corr 1 2 5).enabled = true :=
  ⟨fun d hd => ⟨delivering_inv .corr 0 2 d hd corr_control.1, delivering_inv .corr 1 2 d hd corr_control.2⟩, by decide⟩

/-- The draws 14 and 15. -/
theorem witness_AckStep :
    (atCap.Inv ∧ atCap.enabled = true ∧ atCap.phase = .ack ∧ atCap.drawVal.toNat < 15) ∧
      (delivering .ack 0 1 15).Inv ∧ (delivering .ack 0 1 15).enabled = true ∧ 15 ≤ (delivering .ack 0 1 15).drawVal.toNat :=
  ⟨⟨atCap_inv, by decide, rfl, by decide⟩, delivering_inv _ _ _ _ (by decide) ⟨by decide, by decide, by decide, by decide⟩,
    by decide, by decide⟩

theorem witness_RecvSummaryFinishSteps :
    ((delivering .recv 1 100 0).Inv ∧ (delivering .recv 1 100 0).enabled = true) ∧
      ((delivering .summary 2 0 0).Inv ∧ (delivering .summary 2 0 0).enabled = true) ∧
      (delivering .finish 2 0 0).Inv ∧ (delivering .finish 2 0 0).enabled = true :=
  ⟨⟨delivering_inv _ _ _ _ (by decide) ⟨by decide, by decide, by decide, by decide⟩, by decide⟩,
    ⟨delivering_inv _ _ _ _ (by decide) ⟨by decide, by decide, by decide⟩, by decide⟩,
    delivering_inv _ _ _ _ (by decide) ⟨by decide, by decide, by decide⟩, by decide⟩

/-- ATT 99 and 100; closing a data frame and the control frame. -/
theorem witness_RetryCapAndFrameEnd :
    (delivering .loss 0 99 0).att.toNat < 100 ∧ (delivering .loss 0 100 0).att.toNat = 100 ∧
      (delivering .ack 0 1 99).fidx ≤ (delivering .ack 0 1 99).ndata ∧ (delivering .ack 1 1 99).fidx ≤ (delivering .ack 1 1 99).ndata ∧
      (delivering .ack 1 1 99).ndata.toNat ≤ 65280 ∧ (65280#17).toNat ≤ 65280 := by decide

theorem witness_CorruptionNeverAffectsDelivery : (delivering .corr 0 1 5).phase = .corr ∧ (delivering .corr 0 1 5).enabled = true := by
  decide

theorem witness_EventsAreSelfFraming : (delivering .loss 0 1 5).Inv ∧ (delivering .loss 0 1 5).enabled = true :=
  ⟨delivering_inv _ _ _ _ (by decide) ⟨by decide, by decide, by decide, by decide⟩, by decide⟩

theorem witness_StepKeepsInvariant : atCap.Inv ∧ step atCap = .next (sequencerStep atCap) ∧ (sequencerStep atCap).phase = .summary :=
  ⟨atCap_inv, rfl, by decide⟩

theorem witness_StepKeepsFramesOfSource :
    (delivering .send 0 0 0).Inv ∧ (delivering .send 0 0 0).FramesInv ∧
      step (delivering .send 0 0 0) = .next (sequencerStep (delivering .send 0 0 0)) :=
  ⟨delivering_inv _ _ _ _ (by decide) ⟨by decide, by decide, by decide⟩, delivering_frames _ _ _ _, rfl⟩

theorem witness_StepKeepsStatisticsBalance :
    (atCap.Inv ∧ atCap.StatsInv ∧ (atCap.AttemptsInv fun f => if f < 2 then 100 else 0) ∧
        step atCap = .next (sequencerStep atCap)) ∧
      ended.Inv ∧ ended.StatsInv ∧ (ended.AttemptsInv fun f => if f < 2 then 2 else 0) ∧ ended.done = true :=
  ⟨⟨atCap_inv, atCap_stats, atCap_attempts, rfl⟩, ended_inv, ended_stats, ended_attempts, rfl⟩

/-- An enabled step, a run started, a host access during a run, a run that waits, and one that is served. -/
theorem witness_RunMakesProgress :
    (atCap.Inv ∧ atCap.enabled = true ∧ atCap.evq = [] ∧ atCap.drawFull = true) ∧
      (ended.Inv ∧ ended.busy = false ∧ ended.err = false ∧ exec .run ended = .next (startRun ended)) ∧
      (∃ t, step { atCap with sched := [.host (.write 0#6 0x12000000#32)] } = .next t) ∧
      { atCap with drawFull := false }.busy = true ∧ { atCap with drawFull := false }.enabled = false :=
  ⟨⟨atCap_inv, by decide, rfl, rfl⟩, ⟨ended_inv, by decide, by decide, rfl⟩, ⟨_, rfl⟩, by decide, by decide⟩

theorem witness_EndOfRun :
    (delivering .finish 2 0 0).Inv ∧ (delivering .finish 2 0 0).FramesInv ∧ (delivering .finish 2 0 0).enabled = true ∧
      (0#16).toNat < (delivering .finish 2 0 0).ndata.toNat :=
  ⟨delivering_inv _ _ _ _ (by decide) ⟨by decide, by decide, by decide⟩, delivering_frames _ _ _ _, by decide, by decide⟩

/-- An enabled step with an event to pop, one with an empty slot and a draw to write, one with a command to refuse. -/
theorem witness_HostAndSequencerCommute :
    { atCap with evq := [0x50000000#32] }.enabled = true ∧ { atCap with evq := [0x50000000#32] }.evq ≠ [] ∧
      { delivering .send 0 0 0 with drawFull := false }.enabled = true ∧
      { delivering .send 0 0 0 with drawFull := false }.drawFull = false ∧
      drawWrite 99#32 { delivering .send 0 0 0 with drawFull := false } = .next (delivering .send 0 0 99) ∧
      atCap.phase ≠ .finish ∧ commandWrite 0x12000000#32 atCap = .next (raiseError .busy atCap) :=
  ⟨by decide, by decide, by decide, by decide, rfl, by decide, rfl⟩

/-- One step of each kind of cause, with the state it changes. -/
theorem witness_OnlyNamedWritersChangeState :
    (issued 0x110000FF ended).map (fun t => decide (t.bitbuf ≠ ended.bitbuf)) = some true ∧
      (sequenced building).map (fun t => decide (t.ftab ≠ building.ftab ∧ t.ctab ≠ building.ctab ∧ t.nframes ≠ building.nframes)) =
        some true ∧
      (sequenced atCap).map (fun t => decide (t.stats ≠ atCap.stats ∧ t.phase ≠ atCap.phase ∧ t.evq ≠ atCap.evq ∧
        t.drawFull ≠ atCap.drawFull)) = some true ∧
      (sequenced (delivering .loss 0 100 0)).map (·.caphit) = some true ∧
      (sequenced (delivering .finish 2 0 0)).map (·.done) = some true ∧
      (issued 0x20000000 ended).map (fun t => decide (t.crc ≠ ended.crc)) = some true ∧
      (issued 0x30000000 ended).map (fun t => decide (t.sum ≠ ended.sum)) = some true ∧
      (issued 0x44000000 ended).map (fun t => decide (t.w ≠ ended.w)) = some true ∧
      (issued 0x02000000 ended).map (fun t => decide (t.err ≠ ended.err ∧ t.errcode ≠ ended.errcode)) = some true ∧
      (accessed (.read 16#6) ended).map (fun t => decide (t.rdata ≠ ended.rdata)) = some true ∧
      (after (step { ended with sched := [.reset none] })).map (fun t => decide (t.resets ≠ ended.resets)) = some true := by decide

/-- Thirteen bytes take two data frames, and 100 bytes fill one frame's capacity times eight exactly. -/
theorem witness_FrameCountLaw :
    State.reset.cfg.legal ∧ State.reset.busy = false ∧ State.reset.err = false ∧ State.reset.bitbuf = [] ∧
      8 * (List.replicate 13 0xFF#8).length ≤ 100 * State.reset.cfg.maxDataFrames ∧
      8 * (List.replicate 25 0xFF#8).length ≤ 100 * { Config.specDefault with maxDataFrames := 2 }.maxDataFrames := by decide

/-- Two states that differ in the number of resets and in the value left in an empty slot. -/
theorem witness_UnspecifiedContentsStayHidden :
    let s : State := { delivering .send 0 0 5 with drawFull := false }
    let s' : State := { s with resets := 7, drawVal := 42 }
    s.Inv ∧ s.sameVisible s' ∧ (∀ a, s.sched.head? ≠ some (.reset (some (.read a)))) ∧ step s = .next (sequencerStep s) :=
  ⟨⟨{ eightZeros_storage with drawLegal := fun h => absurd h (by decide) }, ⟨by decide, by decide, by decide⟩, fun _ => ⟨eightZeros_count, rfl⟩⟩,
    ⟨rfl, fun h => absurd h (by decide)⟩, by simp [delivering, eightZeros, State.reset], rfl⟩

theorem witness_AssemblerNeverTruncates :
    assemble .wAppend [16, 0xFFFF] = some (.wAppend 16 0xFFFF#16) ∧ assemble .wAppend [16, 0x10000] = none ∧
      (Instr.wAppend 1 0#16).wellFormed = true := by decide

/-- Bytes up to the capacity exactly, and a string up to 256 bits exactly. -/
theorem witness_PseudoInstructionsRunAsSequences :
    State.reset.busy = false ∧
      { nearlyFull with bitbuf := zeros 92 }.bitbuf.length + 8 * [0xFF#8].length ≤ 100 * nearlyFull.cfg.maxDataFrames ∧
      { State.reset with w := zeros 239 }.w.length + (zeros 17).length ≤ 256 := by decide

end Sys2Proof.Tests
end

section
/-! SUPPORT. Bit sequences: the lengths of the frames the block builds, stores and destuffs (R10, R171 to R177). -/

namespace Sys2Proof.Machine

@[simp] theorem length_bitsMSB {k : Nat} (v : BitVec k) (n : Nat) : (bitsMSB v n).length = n := by
  induction n with
  | zero => rfl
  | succ n ih => simp [bitsMSB, ih]

@[simp] theorem length_payload (src : Bits) (i : Nat) : (payload src i).length = 100 := by
  simp only [payload, zeros, payloadBits, List.length_append, List.length_replicate, List.length_take]
  omega

/-- A raw data frame: the head of 40 bits, the payload, the CRC and the closing flag (R172). -/
@[simp] theorem length_dataRaw (i : Word) (p : Bits) (crc : BitVec 16) : (dataRaw i p crc).length = p.length + 64 := by
  simp only [dataRaw, List.length_append, length_bitsMSB, seqBits, crcBits]
  omega

/-- A raw checksum-control frame is six bytes (R173). -/
@[simp] theorem length_ctrlRaw (code ck : Byte) : (ctrlRaw code ck).length = 48 := by
  simp only [ctrlRaw, List.length_append, length_bitsMSB]

/-- The stuffer puts in at most one bit for five, counting the `cnt` 1s it has seen before. -/
theorem length_stuffFrom_le (m : Bits) (cnt : Nat) : 5 * (stuffFrom cnt m).length ≤ 6 * m.length + cnt := by
  induction m generalizing cnt with
  | nil => simp [stuffFrom]
  | cons b m ih =>
    cases b with
    | false =>
      have := ih 0
      simp only [stuffFrom, List.length_cons]
      omega
    | true =>
      simp only [stuffFrom, stuffRun]
      split
      · have := ih 0
        simp only [List.length_cons]
        omega
      · have := ih (cnt + 1)
        simp only [List.length_cons]
        omega

/-- A stuffed frame is longer than its raw frame by at most a fifth of it. -/
theorem length_stuffFrame_le (f : Bits) (h : 16 ≤ f.length) : 5 * (stuffFrame f).length ≤ 6 * f.length := by
  have := length_stuffFrom_le (frameBody f) 0
  simp only [stuffFrame, stuffBody, frameHead, frameTail, frameBody, List.length_append, List.length_take,
    List.length_drop] at this ⊢
  omega

theorem length_stuffFrame_dataRaw_le (i : Word) (src : Bits) (k : Nat) (crc : BitVec 16) :
    (stuffFrame (dataRaw i (payload src k) crc)).length ≤ frameCap := by
  have := length_stuffFrame_le (dataRaw i (payload src k) crc) (by simp)
  simp only [length_dataRaw, length_payload, frameCap] at this ⊢
  omega

theorem length_stuffFrame_ctrlRaw_le (code ck : Byte) : (stuffFrame (ctrlRaw code ck)).length ≤ frameCap := by
  have := length_stuffFrame_le (ctrlRaw code ck) (by simp)
  simp only [length_ctrlRaw, frameCap] at this ⊢
  omega

/-- The destuffer only drops bits. -/
theorem length_unstuffFrom_le {y m : Bits} {cnt : Nat} (h : unstuffFrom cnt y = .ok m) : m.length ≤ y.length := by
  induction y generalizing cnt m with
  | nil =>
    simp only [unstuffFrom] at h
    split at h <;> cases h
    exact Nat.le_refl _
  | cons b y ih =>
    simp only [unstuffFrom] at h
    split at h
    · split at h
      · cases h
      · exact Nat.le_succ_of_le (ih h)
    · split at h <;> cases h
      exact Nat.succ_le_succ (ih ‹_›)

theorem length_unstuffFrame_le {f r : Bits} (hf : 16 ≤ f.length) (h : unstuffFrame f = .ok r) : r.length ≤ f.length := by
  unfold unstuffFrame at h
  split at h <;> cases h
  have hm := length_unstuffFrom_le ‹unstuffBody (frameBody f) = _›
  simp only [frameHead, frameTail, frameBody, List.length_append, List.length_take, List.length_drop] at hm ⊢
  omega

/-- What FTAB holds in a slot fits the work buffer, written or not (R23, log 5). -/
theorem length_frameAt_le {s : State} (h : s.StorageInv) (k : Nat) : (s.frameAt k).length ≤ frameCap := by
  unfold State.frameAt
  cases hr : s.ftab.read k with
  | none => simp [frameCap]
  | some f => exact (h.ftabSlots _ (Memory.mem_of_read hr)).2

end Sys2Proof.Machine
end

section
/-! SUPPORT. The storage invariant: what each operation of the state does to it. -/

namespace Sys2Proof.Machine

/-- A write lists its slot and unlists none. -/
theorem Memory.isSome_read_write {α : Type} {m : Memory α} {k i : Nat} (x : α) (h : i ≠ k → (m.read i).isSome = true) :
    ((m.write k x).read i).isSome = true := by
  by_cases hi : i = k
  · subst hi; simp
  · rw [Memory.read_write_other m x hi]; exact h hi

theorem ErrorCause.code_range (c : ErrorCause) : 1#4 ≤ c.code ∧ c.code ≤ 9#4 := by cases c <;> decide

theorem raiseError_storage {s : State} (h : s.StorageInv) (c : ErrorCause) : (raiseError c s).StorageInv :=
  { h with
    errLatch := by
      have hl := h.errLatch
      cases he : s.err with
      | true => simpa [he] using hl
      | false => simpa [he] using c.code_range }

theorem push_storage {s : State} {ws : List Word} (h : s.StorageInv) (room : s.evq.length + ws.length ≤ s.cfg.evtDepth) :
    (push ws s).StorageInv :=
  { h with fifoFits := by simpa using room }

theorem takeDraw_storage {s : State} (h : s.StorageInv) : (takeDraw s).StorageInv :=
  { h with drawLegal := fun hd => absurd hd (by simp) }

theorem busRead_storage {s : State} (h : s.StorageInv) (a : PortAddr) : (busRead a s).StorageInv :=
  { h with
    fifoFits := by
      have := h.fifoFits
      rw [busRead_evq, busRead_cfg]
      split
      · rw [List.length_tail]; omega
      · exact this }

theorem endFrame_storage {s : State} (h : s.StorageInv) : (endFrame s).StorageInv := { h with }

theorem attemptFailed_storage {s : State} (h : s.StorageInv) : (attemptFailed s).StorageInv := by
  unfold attemptFailed
  split
  · exact { h with }
  · exact endFrame_storage { h with }

/-- A legal source needs no more data frames than there are slots (R8, R22). -/
theorem frameCount_le {s : State} (h : s.StorageInv) : frameCount s.bitbuf.length ≤ s.cfg.maxDataFrames := by
  have hb := h.bitbufFits
  simp only [frameCount, ceilDiv, payloadBits, Config.maxBits] at hb ⊢
  omega

theorem startRun_ndata {s : State} (h : s.StorageInv) : (startRun s).ndata.toNat = frameCount s.bitbuf.length := by
  have := frameCount_le h
  obtain ⟨-, hmax, -⟩ := h.cfgLegal
  exact Nat.mod_eq_of_lt (by omega)

theorem startRun_storage {s : State} (h : s.StorageInv) : (startRun s).StorageInv :=
  { h with
    ndataFits := by rw [startRun_ndata h]; exact frameCount_le h
    framesStored := fun i hi => absurd hi (Nat.not_lt_zero i)
    crcsStored := fun i hi => absurd hi (by simp [State.built, startRun])
    drawLegal := fun hd => absurd hd (by simp [startRun]) }

end Sys2Proof.Machine
end

section
/-! SUPPORT. The whole invariant: what it asks of the counters in each phase, and that reset and the host's accesses keep it. -/

namespace Sys2Proof.Machine

/-! What the invariant asks of the counters, phase by phase -/

theorem controlInv_idle {s : State} (hp : s.phase = .idle) : s.controlInv ↔ s.nframes.toNat ≤ s.ndata.toNat + 1 := by
  simp only [State.controlInv, hp]

theorem controlInv_build {s : State} (hp : s.phase = .build) :
    s.controlInv ↔ s.nframes.toNat < s.ndata.toNat ∧ s.fidx = 0#17 ∧ s.att = 0#7 := by
  simp only [State.controlInv, hp]

theorem controlInv_cksum {s : State} (hp : s.phase = .cksum) :
    s.controlInv ↔ s.nframes.toNat = s.ndata.toNat ∧ s.fidx = 0#17 ∧ s.att = 0#7 := by
  simp only [State.controlInv, hp]

theorem controlInv_send {s : State} (hp : s.phase = .send) :
    s.controlInv ↔ s.allStored ∧ s.fidx ≤ s.ndata ∧ s.att < 100#7 := by
  simp only [State.controlInv, hp]

theorem controlInv_loss {s : State} (hp : s.phase = .loss) :
    s.controlInv ↔ s.allStored ∧ s.fidx < s.ndata ∧ 1#7 ≤ s.att ∧ s.att ≤ 100#7 := by
  simp only [State.controlInv, hp]

/-- Past the loss decision an attempt of any frame is in flight. -/
theorem controlInv_attempt {s : State} (hp : s.phase = .corr ∨ s.phase = .recv ∨ s.phase = .ack) :
    s.controlInv ↔ s.allStored ∧ s.fidx ≤ s.ndata ∧ 1#7 ≤ s.att ∧ s.att ≤ 100#7 := by
  obtain hp | hp | hp := hp <;> simp only [State.controlInv, hp]

/-- Every frame is closed. -/
theorem controlInv_closed {s : State} (hp : s.phase = .summary ∨ s.phase = .finish) :
    s.controlInv ↔ s.allStored ∧ s.fidx.toNat = s.ndata.toNat + 1 ∧ s.att = 0#7 := by
  obtain hp | hp := hp <;> simp only [State.controlInv, hp]

/-! Reset and the host's accesses: only RUN and reset change a counter of the sequencer -/

theorem resetBlock_inv {s : State} (h : s.Inv) (d : Option Access) : (resetBlock d s).Inv where
  storage :=
    { cfgLegal := h.storage.cfgLegal
      bitbufFits := Nat.zero_le _
      bitbufBytes := rfl
      workFits := Nat.zero_le _
      fifoFits := Nat.zero_le _
      ndataFits := Nat.zero_le _
      ftabCanonical := rfl
      ctabCanonical := rfl
      ftabSlots := fun p hp => absurd hp List.not_mem_nil
      ctabSlots := fun p hp => absurd hp List.not_mem_nil
      framesStored := fun i hi => absurd hi (Nat.not_lt_zero i)
      crcsStored := fun i hi => absurd hi (by simp [State.built, resetBlock, State.reset])
      drawLegal := fun hd => Bool.noConfusion hd
      errLatch := rfl }
  control := Nat.zero_le _
  run := fun hb => absurd hb Bool.false_ne_true

theorem raiseError_inv {s : State} (h : s.Inv) (c : ErrorCause) : (raiseError c s).Inv :=
  ⟨raiseError_storage h.storage c, h.control, h.run⟩

theorem clearError_inv {s : State} (h : s.Inv) : (clearError s).Inv :=
  ⟨{ h.storage with errLatch := rfl }, h.control, h.run⟩

theorem busRead_inv {s : State} (h : s.Inv) (a : PortAddr) : (busRead a s).Inv :=
  ⟨busRead_storage h.storage a, h.control, h.run⟩

theorem drawWrite_inv {v : Word} {s t : State} (h : s.Inv) (ht : drawWrite v s = .next t) : t.Inv := by
  obtain ⟨c, rfl⟩ | ⟨hv, -, rfl⟩ := drawWrite_next ht
  · exact raiseError_inv h c
  · refine ⟨{ h.storage with drawLegal := fun _ => ?_ }, h.control, h.run⟩
    show (drawField v).setWidth 7 < 100#7
    bv_omega

/-- Changing the source, W, CRC or SUM of an idle block leaves the sequencer's part of the invariant. -/
theorem State.Inv.of_idle {s t : State} (h : s.Inv) (hidle : t.busy = false) (hp : t.phase = s.phase)
    (hf : t.nframes = s.nframes) (hn : t.ndata = s.ndata) (hs : t.StorageInv) : t.Inv where
  storage := hs
  control := by
    have hi := State.busy_eq_false.1 hidle
    rw [controlInv_idle hi, hf, hn]
    exact (controlInv_idle (hp ▸ hi)).1 h.control
  run := fun hb => absurd hb (by simp [hidle])

/-- What a work-buffer command leaves in W fits it (R180 to R184). -/
theorem workCommand_fits {i : Instr} {s t : State} (h : s.StorageInv) (hidle : s.busy = false)
    (hi : i = .wClear ∨ (∃ n v, i = .wAppend n v) ∨ i = .stuff ∨ i = .unstuff ∨ ∃ k, i = .frameLoad k)
    (ht : exec i s = .next t) : t.w.length ≤ frameCap := by
  have hraised {c : ErrorCause} (hr : raised c s = .next t) : t.w.length ≤ frameCap := by
    rw [raised_next hr]; exact h.workFits
  obtain rfl | ⟨n, v, rfl⟩ | rfl | rfl | ⟨k, rfl⟩ := hi <;> replace ht := (whenIdle_of_idle hidle _).symm.trans ht
  · cases ht; exact Nat.zero_le _
  · split at ht
    · exact hraised ht
    · cases ht
      simp only [appendField, List.length_append, length_bitsMSB]
      omega
  · split at ht
    · exact hraised ht
    · split at ht
      · exact hraised ht
      · cases ht; exact Nat.le_of_not_lt ‹_›
  · split at ht
    · exact hraised ht
    · split at ht
      · cases ht; exact Nat.le_trans (length_unstuffFrame_le (Nat.le_of_not_lt ‹_›) ‹_›) h.workFits
      · exact hraised ht
  · split at ht
    · exact hraised ht
    · cases ht; exact length_frameAt_le h _

theorem startRun_inv {s : State} (h : s.Inv) : (startRun s).Inv where
  storage := startRun_storage h.storage
  control := by
    have hphase : (startRun s).phase = if 0#17 < (startRun s).ndata then .build else .cksum := rfl
    by_cases hn : 0#17 < (startRun s).ndata
    · rw [if_pos hn] at hphase
      have hpos : 0 < (startRun s).ndata.toNat := BitVec.lt_def.1 hn
      exact (controlInv_build hphase).2 ⟨hpos, rfl, rfl⟩
    · rw [if_neg hn] at hphase
      have hzero : (startRun s).ndata.toNat = 0 := Nat.eq_zero_of_not_pos fun hpos => hn (BitVec.lt_def.2 hpos)
      exact (controlInv_cksum hphase).2 ⟨hzero.symm, rfl, rfl⟩
  run := fun _ => ⟨startRun_ndata h.storage, rfl⟩

theorem exec_inv {i : Instr} {s t : State} (h : s.Inv) (ht : exec i s = .next t) : t.Inv := by
  have hs := h.storage
  obtain rfl | ⟨c, rfl⟩ | ⟨-, rfl⟩ | ⟨hidle, hcmd⟩ := exec_next ht
  · exact h
  · exact raiseError_inv h c
  · exact clearError_inv h
  obtain ⟨-, rfl⟩ | ⟨b, -, hfits, rfl⟩ | ⟨c, -, rfl⟩ | ⟨v, -, rfl⟩ | ⟨w, hi, rfl⟩ | ⟨-, -, rfl⟩ := hcmd
  · exact h.of_idle hidle rfl rfl rfl { hs with bitbufFits := Nat.zero_le _, bitbufBytes := rfl }
  · have hbytes := hs.bitbufBytes
    refine h.of_idle hidle rfl rfl rfl { hs with bitbufFits := ?_, bitbufBytes := ?_ }
    · simpa using hfits
    · simp only [List.length_append, length_bitsMSB]; omega
  · exact h.of_idle hidle rfl rfl rfl { hs with }
  · exact h.of_idle hidle rfl rfl rfl { hs with }
  · exact h.of_idle hidle rfl rfl rfl { hs with workFits := workCommand_fits hs hidle hi ht }
  · exact startRun_inv h

theorem commandWrite_inv {v : Word} {s t : State} (h : s.Inv) (ht : commandWrite v s = .next t) : t.Inv := by
  obtain ⟨i, -, ht⟩ | ⟨-, c, -, rfl⟩ := commandWrite_next ht
  · exact exec_inv h ht
  · exact raiseError_inv h c

end Sys2Proof.Machine
end

section
/-! SUPPORT. The step of each phase keeps the storage and the counters; so the sequencer, and every step, keeps the invariant. -/

namespace Sys2Proof.Machine

/-! The run's facts -/

/-- Only FINISH writes DONE, and no step writes NDATA. -/
theorem phaseStep_ndata_done (s : State) :
    (phaseStep s).ndata = s.ndata ∧ ((phaseStep s).done = s.done ∨ (phaseStep s).phase = .idle) := by
  unfold phaseStep
  split
  · exact ⟨rfl, .inl rfl⟩
  · exact ⟨rfl, .inl rfl⟩
  · exact ⟨rfl, .inl rfl⟩
  · exact ⟨rfl, .inl rfl⟩
  · unfold stepLoss; dsimp only; split <;> simp
  · unfold stepCorr; dsimp only; split <;> split <;> simp
  · exact ⟨rfl, .inl rfl⟩
  · unfold stepAck; dsimp only; split <;> simp
  · exact ⟨rfl, .inl rfl⟩
  · exact ⟨rfl, .inr rfl⟩

theorem phaseStep_run {s : State} (h : s.runInv) (hbusy : s.busy = true) : (phaseStep s).runInv := by
  obtain ⟨-, hsrc, -⟩ := phaseStep_keeps s
  obtain ⟨hn, hdone | hidle⟩ := phaseStep_ndata_done s
  · intro _
    rw [hn, hsrc, hdone]
    exact h hbusy
  · exact fun hb => absurd hidle (State.busy_eq_true.1 hb)

/-! The storage -/

theorem stepBuild_storage {s : State} (h : s.StorageInv) (hn : s.nframes.toNat < s.ndata.toNat)
    (room : s.evq.length + 2 ≤ s.cfg.evtDepth) : (stepBuild s).StorageInv := by
  have hfits := h.ndataFits
  obtain ⟨-, hmax, -⟩ := h.cfgLegal
  have hslot : s.nframes.toNat < s.cfg.maxDataFrames := by omega
  have hnext : (s.nframes + 1#32).toNat = s.nframes.toNat + 1 := by bv_omega
  refine push_storage { h with
    ftabCanonical := Memory.wf_write _ _ _ h.ftabCanonical
    ctabCanonical := Memory.wf_write _ _ _ h.ctabCanonical
    ftabSlots := fun p hp => ?_
    ctabSlots := fun p hp => ?_
    framesStored := fun i hi => ?_
    crcsStored := fun i hi => ?_ } room
  · obtain rfl | hp := Memory.mem_write hp
    · exact ⟨Nat.le_of_lt hslot, length_stuffFrame_dataRaw_le ..⟩
    · exact h.ftabSlots p hp
  · obtain rfl | hp := Memory.mem_write hp
    · exact hslot
    · exact h.ctabSlots p hp
  · exact Memory.isSome_read_write _ fun hne => h.framesStored i (by simp only [hnext] at hi; omega)
  · exact Memory.isSome_read_write _ fun hne => h.crcsStored i (by simp only [State.built, hnext] at hi ⊢; omega)

theorem stepCksum_storage {s : State} (h : s.StorageInv) (hn : s.nframes.toNat = s.ndata.toNat)
    (room : s.evq.length + 1 ≤ s.cfg.evtDepth) : (stepCksum s).StorageInv := by
  have hfits := h.ndataFits
  obtain ⟨-, hmax, -⟩ := h.cfgLegal
  have hnext : (s.ndata.setWidth 32 + 1#32).toNat = s.ndata.toNat + 1 := by bv_omega
  refine push_storage { h with
    ftabCanonical := Memory.wf_write _ _ _ h.ftabCanonical
    ftabSlots := fun p hp => ?_
    framesStored := fun i hi => ?_
    crcsStored := fun i hi => ?_ } room
  · obtain rfl | hp := Memory.mem_write hp
    · exact ⟨hfits, length_stuffFrame_ctrlRaw_le ..⟩
    · exact h.ftabSlots p hp
  · exact Memory.isSome_read_write _ fun hne => h.framesStored i (by simp only [hnext] at hi; omega)
  · exact h.crcsStored i (by simp only [State.built, hnext] at hi ⊢; omega)

theorem stepLoss_storage {s : State} (h : s.StorageInv) (room : s.evq.length + 2 ≤ s.cfg.evtDepth) :
    (stepLoss s).StorageInv := by
  have ht := takeDraw_storage h
  unfold stepLoss
  dsimp only
  split
  · exact attemptFailed_storage (push_storage { ht with } room)
  · exact { ht with }

theorem stepCorr_storage {s : State} (h : s.StorageInv) (room : s.evq.length + 2 ≤ s.cfg.evtDepth) :
    (stepCorr s).StorageInv := by
  have ht := takeDraw_storage h
  unfold stepCorr
  dsimp only
  split <;> split
  · exact push_storage { ht with } room
  · exact { ht with }
  · exact push_storage { ht with } room
  · exact { ht with }

theorem stepAck_storage {s : State} (h : s.StorageInv) (room : s.evq.length + 2 ≤ s.cfg.evtDepth) :
    (stepAck s).StorageInv := by
  have ht := takeDraw_storage h
  unfold stepAck
  dsimp only
  split
  · exact attemptFailed_storage (push_storage { ht with } room)
  · exact endFrame_storage (push_storage ht room)

theorem phaseStep_storage {s : State} (h : s.Inv) (room : s.evq.length + s.phase.need ≤ s.cfg.evtDepth) :
    (phaseStep s).StorageInv := by
  have hs := h.storage
  unfold phaseStep
  split <;> rename_i hp <;> rw [hp] at room
  · exact hs
  · exact stepBuild_storage hs ((controlInv_build hp).1 h.control).1 room
  · exact stepCksum_storage hs ((controlInv_cksum hp).1 h.control).1 room
  · exact push_storage { hs with } room
  · exact stepLoss_storage hs room
  · exact stepCorr_storage hs room
  · exact push_storage { hs with } room
  · exact stepAck_storage hs room
  · exact push_storage { hs with } room
  · exact push_storage { hs with } room

/-! The counters -/

/-- NDATA leaves its 17 bits room for FIDX to pass it (R8, R21). -/
theorem ndata_le {s : State} (h : s.StorageInv) : s.ndata.toNat ≤ 65280 :=
  Nat.le_trans h.ndataFits h.cfgLegal.2.1

theorem endFrame_control {s : State} (hstored : s.allStored) (hf : s.fidx ≤ s.ndata) (hn : s.ndata.toNat ≤ 65280) :
    (endFrame s).controlInv := by
  have hphase : (endFrame s).phase = if s.fidx + 1#17 ≤ s.ndata then .send else .summary := rfl
  by_cases hle : s.fidx + 1#17 ≤ s.ndata
  · rw [if_pos hle] at hphase
    exact (controlInv_send hphase).2 ⟨hstored, hle, show 0#7 < 100#7 by decide⟩
  · rw [if_neg hle] at hphase
    refine (controlInv_closed (.inl hphase)).2 ⟨hstored, ?_, rfl⟩
    show (s.fidx + 1#17).toNat = s.ndata.toNat + 1
    bv_omega

theorem attemptFailed_control {s : State} (hstored : s.allStored) (hf : s.fidx ≤ s.ndata) (hn : s.ndata.toNat ≤ 65280) :
    (attemptFailed s).controlInv := by
  unfold attemptFailed
  split
  · exact (controlInv_send rfl).2 ⟨hstored, hf, ‹_›⟩
  · exact endFrame_control hstored hf hn

theorem stepBuild_control {s : State} (hn : s.ndata.toNat ≤ 65280)
    (hc : s.nframes.toNat < s.ndata.toNat ∧ s.fidx = 0#17 ∧ s.att = 0#7) : (stepBuild s).controlInv := by
  obtain ⟨hlt, hf, ha⟩ := hc
  have hphase : (stepBuild s).phase = if s.nframes + 1#32 = s.ndata.setWidth 32 then .cksum else .build := rfl
  by_cases hlast : s.nframes + 1#32 = s.ndata.setWidth 32
  · rw [if_pos hlast] at hphase
    refine (controlInv_cksum hphase).2 ⟨?_, hf, ha⟩
    show (s.nframes + 1#32).toNat = s.ndata.toNat
    bv_omega
  · rw [if_neg hlast] at hphase
    refine (controlInv_build hphase).2 ⟨?_, hf, ha⟩
    show (s.nframes + 1#32).toNat < s.ndata.toNat
    bv_omega

theorem stepCksum_control {s : State} (hn : s.ndata.toNat ≤ 65280) : (stepCksum s).controlInv := by
  refine (controlInv_send rfl).2 ⟨?_, show 0#17 ≤ s.ndata by bv_omega, show 0#7 < 100#7 by decide⟩
  show (s.ndata.setWidth 32 + 1#32).toNat = s.ndata.toNat + 1
  bv_omega

theorem stepSend_control {s : State} (hc : s.allStored ∧ s.fidx ≤ s.ndata ∧ s.att < 100#7) : (stepSend s).controlInv := by
  obtain ⟨hstored, hf, ha⟩ := hc
  have hatt : 1#7 ≤ s.att + 1#7 ∧ s.att + 1#7 ≤ 100#7 := by constructor <;> bv_omega
  have hphase : (stepSend s).phase = if s.fidx < s.ndata then .loss else .corr := rfl
  by_cases hdata : s.fidx < s.ndata
  · rw [if_pos hdata] at hphase
    exact (controlInv_loss hphase).2 ⟨hstored, hdata, hatt⟩
  · rw [if_neg hdata] at hphase
    exact (controlInv_attempt (.inl hphase)).2 ⟨hstored, hf, hatt⟩

theorem stepLoss_control {s : State} (hn : s.ndata.toNat ≤ 65280)
    (hc : s.allStored ∧ s.fidx < s.ndata ∧ 1#7 ≤ s.att ∧ s.att ≤ 100#7) : (stepLoss s).controlInv := by
  obtain ⟨hstored, hf, hatt⟩ := hc
  unfold stepLoss
  dsimp only
  split
  · exact attemptFailed_control hstored (BitVec.le_of_lt hf) hn
  · exact (controlInv_attempt (.inl rfl)).2 ⟨hstored, BitVec.le_of_lt hf, hatt⟩

theorem stepCorr_control {s : State} (hc : s.allStored ∧ s.fidx ≤ s.ndata ∧ 1#7 ≤ s.att ∧ s.att ≤ 100#7) :
    (stepCorr s).controlInv := by
  unfold stepCorr
  dsimp only
  split <;> split <;> exact (controlInv_attempt (.inr (.inl rfl))).2 hc

theorem stepAck_control {s : State} (hn : s.ndata.toNat ≤ 65280)
    (hc : s.allStored ∧ s.fidx ≤ s.ndata ∧ 1#7 ≤ s.att ∧ s.att ≤ 100#7) : (stepAck s).controlInv := by
  obtain ⟨hstored, hf, -⟩ := hc
  unfold stepAck
  dsimp only
  split
  · exact attemptFailed_control hstored hf hn
  · exact endFrame_control hstored hf hn

theorem phaseStep_control {s : State} (h : s.Inv) : (phaseStep s).controlInv := by
  have hn := ndata_le h.storage
  have hc := h.control
  unfold phaseStep
  split <;> rename_i hp
  · exact hc
  · exact stepBuild_control hn ((controlInv_build hp).1 hc)
  · exact stepCksum_control hn
  · exact stepSend_control ((controlInv_send hp).1 hc)
  · exact stepLoss_control hn ((controlInv_loss hp).1 hc)
  · exact stepCorr_control ((controlInv_attempt (.inl hp)).1 hc)
  · exact (controlInv_attempt (.inr (.inr rfl))).2 ((controlInv_attempt (.inr (.inl hp))).1 hc)
  · exact stepAck_control hn ((controlInv_attempt (.inr (.inr hp))).1 hc)
  · exact (controlInv_closed (.inr rfl)).2 ((controlInv_closed (.inl hp)).1 hc)
  · exact (controlInv_idle rfl).2 (Nat.le_of_eq ((controlInv_closed (.inr hp)).1 hc).1)

theorem sequencerStep_inv {s : State} (h : s.Inv) : (sequencerStep s).Inv := by
  cases he : s.enabled with
  | false => rw [sequencerStep_of_not_enabled he]; exact h
  | true =>
    obtain ⟨hbusy, room, -⟩ := State.enabled_iff.1 he
    rw [sequencerStep_of_enabled he]
    exact ⟨phaseStep_storage h room, phaseStep_control h, phaseStep_run h.run (State.busy_eq_true.2 hbusy)⟩

/-! One step -/

theorem transition_inv {tr : Transition} {s t : State} (h : s.Inv) (ht : transition tr s = .next t) : t.Inv := by
  obtain ⟨a, -, rfl⟩ | ⟨v, -, ht⟩ | ⟨v, -, ht⟩ | ⟨_, _, -, -, -, rfl⟩ | ⟨-, rfl⟩ | ⟨d, -, rfl⟩ := transition_next ht
  · exact busRead_inv h a
  · exact commandWrite_inv h ht
  · exact drawWrite_inv h ht
  · exact h
  · exact sequencerStep_inv h
  · exact resetBlock_inv h d

/-- The schedule is no part of the invariant. -/
theorem withSched_inv {s : State} (h : s.Inv) (rest : List Transition) : { s with sched := rest }.Inv :=
  ⟨{ h.storage with }, h.control, h.run⟩

/-- Settles O49: the step is the sequencer's or the first transition scheduled, and each keeps the invariant. -/
theorem stepKeepsInvariant : Obligations.StepKeepsInvariant := by
  intro s t h ht
  obtain ⟨-, rfl⟩ | ⟨tr, rest, -, ht⟩ := step_next ht
  · exact sequencerStep_inv h
  · exact transition_inv (withSched_inv h rest) ht

end Sys2Proof.Machine
end

section
/-! SUPPORT. What a read of a register of the port returns: the address map, the bits of STATUS, and the words of the work buffer. -/

namespace Sys2Proof.Machine

/-! The address map -/

theorem readWord_addr (r : Reg) (s : State) : readWord r.addr s = readReg r s := by
  rw [readWord, regAt_addr]

theorem addr_of_regAt {a : PortAddr} {r : Reg} (h : regAt a = some r) : r.addr = a := by
  simpa using List.find?_some h

/-- The reserved addresses of R30 name no register. -/
theorem regAt_reserved {a : PortAddr} :
    (12 ≤ a.toNat ∧ a.toNat ≤ 15) ∨ (25 ≤ a.toNat ∧ a.toNat ≤ 31) ∨ 40 ≤ a.toNat → regAt a = none := by
  revert a; decide

theorem readWord_of_regAt_none {a : PortAddr} (h : regAt a = none) (s : State) : readWord a s = 0#32 := by
  rw [readWord, h]

/-- CKS_RESULT as a number (R153). -/
theorem cksResult_eq_ofNat (v : BitVec 8) : (cksResult v).setWidth 32 = BitVec.ofNat 32 (255 - v.toNat) := by
  rw [← BitVec.ofNat_toNat, cksResult, BitVec.toNat_not]

/-- CKS_DIAG as a number (R153). -/
theorem cksDiag_eq_ofNat (v : BitVec 8) : cksDiag v = BitVec.ofNat 32 (v.toNat + 1) := by
  rw [cksDiag, ← BitVec.ofNat_toNat, BitVec.ofNat_add]

/-! STATUS -/

/-- The bits of STATUS in a table (R29). -/
theorem getLsbD_status (s : State) (i : Nat) :
    s.status.getLsbD i =
      if i < 8 then [s.busy, s.done, s.err, s.caphit, s.drawFull, s.drawWait, s.evtStall].getD i false
      else if i < 12 then s.errcode.getLsbD (i - 8)
      else if i < 16 then s.phase.code.getLsbD (i - 12) else false := by
  change BitVec.getLsbD (w := 16 + 4 + 4 + 1 + 1 + 1 + 1 + 1 + 1 + 1 + 1) _ i = _
  unfold State.status
  simp only [BitVec.getLsbD_append]
  match i with
  | 0 | 1 | 2 | 3 | 4 | 5 | 6 | 7 => simp
  | i + 8 =>
    have h12 : i + 8 < 12 ↔ i < 4 := by omega
    have h16 : i + 8 < 16 ↔ i - 4 < 4 := by omega
    simp [h12, h16, Nat.sub_sub]

theorem status_errcode (s : State) : s.status.extractLsb' 8 4 = s.errcode := by
  ext i hi
  rw [BitVec.getElem_extractLsb', getLsbD_status, if_neg (by omega), if_pos (by omega), Nat.add_sub_cancel_left,
    BitVec.getLsbD_eq_getElem hi]

theorem status_phase (s : State) : s.status.extractLsb' 12 4 = s.phase.code := by
  ext i hi
  rw [BitVec.getElem_extractLsb', getLsbD_status, if_neg (by omega), if_neg (by omega), if_pos (by omega),
    Nat.add_sub_cancel_left, BitVec.getLsbD_eq_getElem hi]

theorem status_high_eq_zero (s : State) : s.status.extractLsb' 16 16 = 0#16 := by
  ext i hi
  rw [BitVec.getElem_extractLsb', getLsbD_status, if_neg (by omega), if_neg (by omega), if_neg (by omega),
    BitVec.getElem_zero]

theorem Phase.drawing_eq (p : Phase) : p.drawing = decide (p = .loss ∨ p = .corr ∨ p = .ack) := by
  cases p <;> rfl

/-- need(P) of the phases that have a step (R28). -/
theorem Phase.need_eq {p : Phase} (h : p ≠ .idle) :
    p.need = if p = .cksum ∨ p = .finish then 1 else if p = .summary then 9 else 2 := by
  cases p with
  | idle => exact absurd rfl h
  | _ => rfl

theorem State.drawWait_eq (s : State) :
    s.drawWait = (decide (s.phase = .loss ∨ s.phase = .corr ∨ s.phase = .ack) && !s.drawFull) := by
  rw [State.drawWait, Phase.drawing_eq]

theorem State.evtStall_eq (s : State) :
    s.evtStall = (decide (s.phase ≠ .idle) && decide (s.cfg.evtDepth < s.evq.length +
      if s.phase = .cksum ∨ s.phase = .finish then 1 else if s.phase = .summary then 9 else 2)) := by
  by_cases h : s.phase = .idle
  · simp [State.evtStall, State.busy, h]
  · rw [State.evtStall, State.busy, State.noRoom, Phase.need_eq h]

/-! The work buffer -/

theorem getLsbD_wordOfBits (x : Bits) {j : Nat} (hj : j < 32) : (wordOfBits x).getLsbD (31 - j) = x.getD j false := by
  rw [wordOfBits, BitVec.getLsbD_ofFnLE, dif_pos (by omega)]
  show x.getD (31 - (31 - j)) false = x.getD j false
  rw [Nat.sub_sub_self (by omega)]

theorem getD_drop_eq_dite (x : Bits) (m j : Nat) :
    (x.drop m).getD j false = if h : m + j < x.length then x[m + j] else false := by
  rw [List.getD_eq_getElem?_getD, List.getElem?_drop]
  split <;> simp_all

theorem wordOfBits_nil : wordOfBits [] = 0#32 := by
  ext i hi
  simp [wordOfBits]

/-! The register map after reset -/

/-- R30's reset values, register by register. -/
theorem readWord_reset (a : PortAddr) :
    readWord a State.reset = if a = 7 then 0x0000FFFF#32 else if a = 9 then 0x000000FF#32 else
      if a = 10 then 0x00000001#32 else 0#32 := by
  cases h : regAt a with
  | none =>
    have ha (r : Reg) : a ≠ r.addr := fun ha => by simp [ha, regAt_addr] at h
    rw [readWord_of_regAt_none h, if_neg (show a ≠ 7 from ha .crc), if_neg (show a ≠ 9 from ha .cksResult),
      if_neg (show a ≠ 10 from ha .cksDiag)]
  | some r =>
    obtain rfl := addr_of_regAt h
    rw [readWord_addr]
    cases r with
    | wWord k =>
      have hread : readReg (.wWord k) State.reset = 0#32 := by
        rw [← wordOfBits_nil]
        exact congrArg wordOfBits List.drop_nil
      obtain ⟨h7, h9, h10⟩ : Reg.addr (.wWord k) ≠ 7 ∧ Reg.addr (.wWord k) ≠ 9 ∧ Reg.addr (.wWord k) ≠ 10 := by
        fin_cases k <;> decide
      rw [hread, if_neg h7, if_neg h9, if_neg h10]
    | _ => rfl

/-! The obligations -/

/-- Settles O12: STATUS's bits are read off their table, and each view is the condition its register field names. -/
theorem statusFields : Obligations.StatusFields := by
  intro s
  have hread : readWord 1 s = s.status := readWord_addr .status s
  have hphase {p : Phase} (hp : s.phase = p) : s.status.extractLsb' 12 4 = p.code := hp ▸ status_phase s
  simp only [hread]
  exact ⟨getLsbD_status s 0, getLsbD_status s 1, getLsbD_status s 2, getLsbD_status s 3, getLsbD_status s 4,
    (getLsbD_status s 5).trans s.drawWait_eq, (getLsbD_status s 6).trans s.evtStall_eq, getLsbD_status s 7,
    status_errcode s, status_high_eq_zero s, hphase, hphase, hphase, hphase, hphase, hphase, hphase, hphase, hphase, hphase⟩

/-- Settles O13: W_WORDk is the word of W from bit 32k on. -/
theorem workBufferReadout : Obligations.WorkBufferReadout := by
  intro s k j hk hj
  have hread : readWord (BitVec.ofNat 6 (32 + k)) s = wordOfBits (s.w.drop (32 * k)) := readWord_addr (.wWord ⟨k, hk⟩) s
  rw [hread, getLsbD_wordOfBits _ hj, getD_drop_eq_dite]

/-- Settles O11: each address of the map stands for its register, a reserved one for none. -/
theorem registerMapReads : Obligations.RegisterMapReads := by
  refine ⟨fun s => ?_, fun s a ha => readWord_of_regAt_none (regAt_reserved ha) s, readWord_reset⟩
  refine ⟨readWord_addr .cmd s, readWord_addr .status s, readWord_addr .draw s, readWord_addr .evtCount s,
    readWord_addr .bitlen s, readWord_addr .nframes s, (readWord_addr .crc s).trans (BitVec.ofNat_toNat 32 s.crc).symm,
    (readWord_addr .cksSum s).trans (BitVec.ofNat_toNat 32 s.sum).symm,
    (readWord_addr .cksResult s).trans (cksResult_eq_ofNat s.sum),
    (readWord_addr .cksDiag s).trans (cksDiag_eq_ofNat s.sum), readWord_addr .wlen s, readWord_addr .statFrames s,
    readWord_addr .statAttempts s, readWord_addr .statLost s, readWord_addr .statCorrupt s, readWord_addr .statAckLost s,
    readWord_addr .statCsCorrupt s, readWord_addr .statMaxFrame s, readWord_addr .statMaxAtt s,
    readWord_addr .statAbandoned s⟩

end Sys2Proof.Machine
end

section
/-! SUPPORT. A step by its cause, and what a step does to the error latch. -/

namespace Sys2Proof.Machine

/-- A sequencer step is its phase's step, or waits; its cause says which. -/
theorem sequencerStep_by_cause (s : State) :
    (s.sequencerCause = .wait ∧ sequencerStep s = s) ∨
      (s.sequencerCause = .sequencer s.phase ∧ sequencerStep s = phaseStep s) := by
  cases he : s.enabled with
  | false => exact .inl ⟨by rw [State.sequencerCause, he, if_neg Bool.false_ne_true], sequencerStep_of_not_enabled he⟩
  | true => exact .inr ⟨by rw [State.sequencerCause, he, if_pos rfl], sequencerStep_of_enabled he⟩

/-- A step does what its cause says, to the state with the step's transition taken off the schedule. -/
theorem step_by_cause {s t : State} (h : step s = .next t) :
    let u : State := { s with sched := s.sched.tail }
    (∃ a, s.cause = .read a ∧ t = busRead a u) ∨
      (∃ i, s.cause = .command i ∧ exec i u = .next t) ∨
      (s.cause = .badCommand ∧ ∃ c, t = raiseError c u) ∨
      (∃ v, s.cause = .draw ∧ drawWrite v u = .next t) ∨
      (s.cause = .ignoredWrite ∧ t = u) ∨
      (s.cause = .wait ∧ t = u) ∨
      (s.cause = .sequencer s.phase ∧ t = phaseStep u) ∨
      (∃ d, s.cause = .reset ∧ t = resetBlock d u) := by
  intro u
  have hseq (hc : s.cause = s.sequencerCause) (ht : t = sequencerStep u) :
      (s.cause = .wait ∧ t = u) ∨ (s.cause = .sequencer s.phase ∧ t = phaseStep u) := by
    rw [hc, ht]
    exact sequencerStep_by_cause u
  obtain ⟨hs, ht⟩ | ⟨tr, rest, hs, ht⟩ := step_next h
  · have hu : u = s := by simp only [u, hs, List.tail_nil]; rw [← hs]
    have := hseq (by simp only [State.cause, hs]) (hu.symm ▸ ht)
    tauto
  · have hu : u = { s with sched := rest } := by simp only [u, hs, List.tail_cons]
    rw [← hu] at ht
    obtain ⟨a, rfl, rfl⟩ | ⟨v, rfl, ht⟩ | ⟨v, rfl, ht⟩ | ⟨a, v, rfl, h0, h2, rfl⟩ | ⟨rfl, rfl⟩ | ⟨d, rfl, rfl⟩ :=
      transition_next ht
    · exact .inl ⟨a, by simp only [State.cause, hs], rfl⟩
    · obtain ⟨i, hd, ht⟩ | ⟨e, c, hd, rfl⟩ := commandWrite_next ht
      · exact .inr (.inl ⟨i, by simp only [State.cause, hs, hd, if_pos], ht⟩)
      · exact .inr (.inr (.inl ⟨by simp only [State.cause, hs, hd, if_pos], c, rfl⟩))
    · exact .inr (.inr (.inr (.inl ⟨v, by simp [State.cause, hs], ht⟩)))
    · exact .inr (.inr (.inr (.inr (.inl ⟨by simp only [State.cause, hs, if_neg h0, if_neg h2], rfl⟩))))
    · have := hseq (by simp only [State.cause, hs]) rfl
      tauto
    · exact .inr (.inr (.inr (.inr (.inr (.inr (.inr ⟨d, by simp only [State.cause, hs], rfl⟩))))))

/-! The error latch -/

/-- `raise Error(c)` writes the latch only if no error is latched (R302). -/
theorem raiseError_latch (c : ErrorCause) (s : State) :
    ((raiseError c s).err = s.err ∧ (raiseError c s).errcode = s.errcode) ∨ s.err = false := by
  cases he : s.err with
  | true => exact .inl (by simp [he])
  | false => exact .inr rfl

/-- A step keeps the error latch, latches a first error and does nothing else, or is CLR_ERR or reset (R302, R291, R340). -/
theorem step_errorLatch {s t : State} (h : step s = .next t) :
    (t.err = s.err ∧ t.errcode = s.errcode) ∨
      (s.err = false ∧ ∃ c, t = raiseError c { s with sched := s.sched.tail }) ∨
      s.cause = .command .clrErr ∨ s.cause = .reset := by
  obtain ⟨a, -, rfl⟩ | ⟨i, hc, ht⟩ | ⟨-, c, rfl⟩ | ⟨v, -, ht⟩ | ⟨-, rfl⟩ | ⟨-, rfl⟩ | ⟨-, rfl⟩ | ⟨d, hc, -⟩ :=
    step_by_cause h
  · exact .inl ⟨rfl, rfl⟩
  · obtain rfl | ⟨c, rfl⟩ | ⟨rfl, -⟩ | ⟨-, hcmd⟩ := exec_next ht
    · exact .inl ⟨rfl, rfl⟩
    · exact (raiseError_latch c _).imp_right fun he => .inl ⟨he, c, rfl⟩
    · exact .inr (.inr (.inl hc))
    · obtain ⟨-, rfl⟩ | ⟨b, -, -, rfl⟩ | ⟨c, -, rfl⟩ | ⟨v, -, rfl⟩ | ⟨w, -, rfl⟩ | ⟨-, -, rfl⟩ := hcmd <;>
        exact .inl ⟨rfl, rfl⟩
  · exact (raiseError_latch c _).imp_right fun he => .inl ⟨he, c, rfl⟩
  · obtain ⟨c, rfl⟩ | ⟨-, -, rfl⟩ := drawWrite_next ht
    · exact (raiseError_latch c _).imp_right fun he => .inl ⟨he, c, rfl⟩
    · exact .inl ⟨rfl, rfl⟩
  · exact .inl ⟨rfl, rfl⟩
  · exact .inl ⟨rfl, rfl⟩
  · obtain ⟨-, -, -, -, herr, hcode, -⟩ := phaseStep_keeps { s with sched := s.sched.tail }
    exact .inl ⟨herr, hcode⟩
  · exact .inr (.inr (.inr hc))

end Sys2Proof.Machine
end

section
/-! SUPPORT. The writers R32 names for each field of the state, and that no step writes a field it is not named for. -/

namespace Sys2Proof.Machine

/-- `t` differs from `s`, apart from the error latch, only in fields that R32 lets the cause `c` write. -/
structure NamedWriters (c : Cause) (s t : State) : Prop where
  cfg : t.cfg = s.cfg
  sched : t.sched = s.sched
  bitbuf : t.bitbuf ≠ s.bitbuf →
    (s.busy = false ∧ (c = .command .srcClear ∨ ∃ b, c = .command (.loadb b))) ∨ c = .reset
  ftab : t.ftab ≠ s.ftab → c = .sequencer .build ∨ c = .sequencer .cksum ∨ c = .reset
  ctab : t.ctab ≠ s.ctab → c = .sequencer .build ∨ c = .reset
  nframes : t.nframes ≠ s.nframes →
    (s.busy = false ∧ c = .command .run) ∨ c = .sequencer .build ∨ c = .sequencer .cksum ∨ c = .reset
  crc : t.crc ≠ s.crc →
    (s.busy = false ∧ (c = .command .crcInit ∨ (∃ b, c = .command (.crcBit b)) ∨ (∃ b, c = .command (.crcByte b)) ∨
      c = .command .run)) ∨ c = .sequencer .build ∨ c = .reset
  sum : t.sum ≠ s.sum →
    (s.busy = false ∧ (c = .command .cksInit ∨ (∃ b, c = .command (.cksAdd b)) ∨ c = .command .run)) ∨
      c = .sequencer .cksum ∨ c = .reset
  w : t.w ≠ s.w →
    (s.busy = false ∧ (c = .command .wClear ∨ (∃ n v, c = .command (.wAppend n v)) ∨ c = .command .stuff ∨
      c = .command .unstuff ∨ ∃ k, c = .command (.frameLoad k))) ∨ c = .reset
  stats : t.stats ≠ s.stats →
    (s.busy = false ∧ c = .command .run) ∨ c = .sequencer .send ∨ c = .sequencer .loss ∨ c = .sequencer .corr ∨
      c = .sequencer .ack ∨ c = .reset
  counters : t.phase ≠ s.phase ∨ t.ndata ≠ s.ndata ∨ t.fidx ≠ s.fidx ∨ t.att ≠ s.att →
    (s.busy = false ∧ c = .command .run) ∨ c = .sequencer s.phase ∨ c = .reset
  drawSlot : t.drawFull ≠ s.drawFull ∨ t.drawVal ≠ s.drawVal →
    c = .draw ∨ (s.busy = false ∧ c = .command .run) ∨ c = .sequencer .loss ∨ c = .sequencer .corr ∨
      c = .sequencer .ack ∨ c = .reset
  evq : t.evq ≠ s.evq → c = .sequencer s.phase ∨ c = .read 3#6 ∨ c = .reset
  done : t.done ≠ s.done → (s.busy = false ∧ c = .command .run) ∨ c = .sequencer .finish ∨ c = .reset
  caphit : t.caphit ≠ s.caphit → (s.busy = false ∧ c = .command .run) ∨
    ((c = .sequencer .loss ∨ c = .sequencer .ack) ∧ s.att ≥ 100#7) ∨ c = .reset
  rdata : t.rdata ≠ s.rdata → (∃ a, c = .read a) ∨ c = .reset
  resets : t.resets ≠ s.resets → c = .reset

/-- Whatever the cause, no field has to change. -/
theorem NamedWriters.refl (c : Cause) (s : State) : NamedWriters c s s := by
  constructor <;> simp

theorem busRead_writers (a : PortAddr) (s : State) : NamedWriters (.read a) s (busRead a s) :=
  { NamedWriters.refl _ s with
    evq := fun h => by
      have ha : regAt a = some .evtData := by
        by_contra hne
        exact h (if_neg hne)
      exact .inr (.inl (addr_of_regAt ha ▸ rfl))
    rdata := fun _ => .inl ⟨a, rfl⟩ }

theorem drawWrite_writers {v : Word} {s t : State} (h : drawWrite v s = .next t) : NamedWriters .draw s t := by
  obtain ⟨c, rfl⟩ | ⟨-, -, rfl⟩ := drawWrite_next h
  · exact { NamedWriters.refl _ s with }
  · exact { NamedWriters.refl _ s with drawSlot := fun _ => .inl rfl }

theorem startRun_writers {s : State} (hidle : s.busy = false) : NamedWriters (.command .run) s (startRun s) :=
  { NamedWriters.refl _ s with
    nframes := fun _ => .inl ⟨hidle, rfl⟩
    crc := fun _ => .inl ⟨hidle, .inr (.inr (.inr rfl))⟩
    sum := fun _ => .inl ⟨hidle, .inr (.inr rfl)⟩
    stats := fun _ => .inl ⟨hidle, rfl⟩
    counters := fun _ => .inl ⟨hidle, rfl⟩
    drawSlot := fun _ => .inr (.inl ⟨hidle, rfl⟩)
    done := fun _ => .inl ⟨hidle, rfl⟩
    caphit := fun _ => .inl ⟨hidle, rfl⟩ }

theorem exec_writers {i : Instr} {s t : State} (h : exec i s = .next t) : NamedWriters (.command i) s t := by
  obtain rfl | ⟨c, rfl⟩ | ⟨-, rfl⟩ | ⟨hidle, hcmd⟩ := exec_next h
  · exact NamedWriters.refl _ t
  · exact { NamedWriters.refl _ s with }
  · exact { NamedWriters.refl _ s with }
  obtain ⟨rfl, rfl⟩ | ⟨b, rfl, -, rfl⟩ | ⟨c, hi, rfl⟩ | ⟨v, hi, rfl⟩ | ⟨w, hi, rfl⟩ | ⟨rfl, -, rfl⟩ := hcmd
  · exact { NamedWriters.refl _ s with bitbuf := fun _ => .inl ⟨hidle, .inl rfl⟩ }
  · exact { NamedWriters.refl _ s with bitbuf := fun _ => .inl ⟨hidle, .inr ⟨b, rfl⟩⟩ }
  · refine { NamedWriters.refl _ s with crc := fun _ => .inl ⟨hidle, ?_⟩ }
    simp only [Cause.command.injEq]
    tauto
  · refine { NamedWriters.refl _ s with sum := fun _ => .inl ⟨hidle, ?_⟩ }
    simp only [Cause.command.injEq]
    tauto
  · exact { NamedWriters.refl _ s with w := fun _ => .inl ⟨hidle, by simpa using hi⟩ }
  · exact startRun_writers hidle

/-- Giving up an attempt after a draw, in LOSS or ACK. -/
theorem attemptFailed_writers {c : Cause} {s u : State} (hu : NamedWriters c s u) (hp : c = .sequencer s.phase)
    (hc : c = .sequencer .loss ∨ c = .sequencer .ack) (hatt : u.att = s.att) : NamedWriters c s (attemptFailed u) := by
  have hstats : c = .sequencer .loss ∨ c = .sequencer .corr ∨ c = .sequencer .ack ∨ c = .reset := by tauto
  unfold attemptFailed
  split
  · exact { hu with counters := fun _ => .inr (.inl hp) }
  · exact { hu with
      stats := fun _ => .inr (.inr hstats)
      counters := fun _ => .inr (.inl hp)
      caphit := fun _ => .inr (.inl ⟨hc, hatt ▸ BitVec.not_lt.1 ‹_›⟩) }

theorem stepBuild_writers {s : State} (hp : s.phase = .build) : NamedWriters (.sequencer .build) s (stepBuild s) :=
  { NamedWriters.refl _ s with
    ftab := fun _ => .inl rfl
    ctab := fun _ => .inl rfl
    nframes := fun _ => .inr (.inl rfl)
    crc := fun _ => .inr (.inl rfl)
    counters := fun _ => .inr (.inl (hp ▸ rfl))
    evq := fun _ => .inl (hp ▸ rfl) }

theorem stepCksum_writers {s : State} (hp : s.phase = .cksum) : NamedWriters (.sequencer .cksum) s (stepCksum s) :=
  { NamedWriters.refl _ s with
    ftab := fun _ => .inr (.inl rfl)
    nframes := fun _ => .inr (.inr (.inl rfl))
    sum := fun _ => .inr (.inl rfl)
    counters := fun _ => .inr (.inl (hp ▸ rfl))
    evq := fun _ => .inl (hp ▸ rfl) }

theorem stepSend_writers {s : State} (hp : s.phase = .send) : NamedWriters (.sequencer .send) s (stepSend s) :=
  { NamedWriters.refl _ s with
    stats := fun _ => .inr (.inl rfl)
    counters := fun _ => .inr (.inl (hp ▸ rfl))
    evq := fun _ => .inl (hp ▸ rfl) }

theorem stepLoss_writers {s : State} (hp : s.phase = .loss) : NamedWriters (.sequencer .loss) s (stepLoss s) := by
  have hdrawn : NamedWriters (.sequencer .loss) s (takeDraw s) :=
    { NamedWriters.refl _ s with drawSlot := fun _ => .inr (.inr (.inl rfl)) }
  unfold stepLoss
  dsimp only
  split
  · exact attemptFailed_writers
      { hdrawn with stats := fun _ => .inr (.inr (.inl rfl)), evq := fun _ => .inl (hp ▸ rfl) } (hp ▸ rfl) (.inl rfl) rfl
  · exact { hdrawn with counters := fun _ => .inr (.inl (hp ▸ rfl)) }

theorem stepCorr_writers {s : State} (hp : s.phase = .corr) : NamedWriters (.sequencer .corr) s (stepCorr s) := by
  have hquiet : NamedWriters (.sequencer .corr) s { takeDraw s with phase := .recv } :=
    { NamedWriters.refl _ s with
      counters := fun _ => .inr (.inl (hp ▸ rfl))
      drawSlot := fun _ => .inr (.inr (.inr (.inl rfl))) }
  have hcorrupt (t : Stats) (ws : List Word) :
      NamedWriters (.sequencer .corr) s (push ws { takeDraw s with phase := .recv, stats := t }) :=
    { hquiet with
      stats := fun _ => .inr (.inr (.inr (.inl rfl)))
      evq := fun _ => .inl (hp ▸ rfl) }
  unfold stepCorr
  dsimp only
  split <;> split
  · exact hcorrupt _ _
  · exact hquiet
  · exact hcorrupt _ _
  · exact hquiet

theorem stepRecv_writers {s : State} (hp : s.phase = .recv) : NamedWriters (.sequencer .recv) s (stepRecv s) :=
  { NamedWriters.refl _ s with
    counters := fun _ => .inr (.inl (hp ▸ rfl))
    evq := fun _ => .inl (hp ▸ rfl) }

theorem stepAck_writers {s : State} (hp : s.phase = .ack) : NamedWriters (.sequencer .ack) s (stepAck s) := by
  have hdrawn (ws : List Word) : NamedWriters (.sequencer .ack) s (push ws (takeDraw s)) :=
    { NamedWriters.refl _ s with
      drawSlot := fun _ => .inr (.inr (.inr (.inr (.inl rfl))))
      evq := fun _ => .inl (hp ▸ rfl) }
  unfold stepAck
  dsimp only
  split
  · exact attemptFailed_writers { hdrawn _ with stats := fun _ => .inr (.inr (.inr (.inr (.inl rfl)))) } (hp ▸ rfl) (.inr rfl)
      rfl
  · exact { hdrawn _ with
      stats := fun _ => .inr (.inr (.inr (.inr (.inl rfl))))
      counters := fun _ => .inr (.inl (hp ▸ rfl)) }

theorem stepSummary_writers {s : State} (hp : s.phase = .summary) :
    NamedWriters (.sequencer .summary) s (stepSummary s) :=
  { NamedWriters.refl _ s with
    counters := fun _ => .inr (.inl (hp ▸ rfl))
    evq := fun _ => .inl (hp ▸ rfl) }

theorem stepFinish_writers {s : State} (hp : s.phase = .finish) : NamedWriters (.sequencer .finish) s (stepFinish s) :=
  { NamedWriters.refl _ s with
    counters := fun _ => .inr (.inl (hp ▸ rfl))
    evq := fun _ => .inl (hp ▸ rfl)
    done := fun _ => .inr (.inl rfl) }

theorem phaseStep_writers (s : State) : NamedWriters (.sequencer s.phase) s (phaseStep s) := by
  unfold phaseStep
  split <;> rename_i hp <;> rw [hp]
  · exact NamedWriters.refl _ s
  · exact stepBuild_writers hp
  · exact stepCksum_writers hp
  · exact stepSend_writers hp
  · exact stepLoss_writers hp
  · exact stepCorr_writers hp
  · exact stepRecv_writers hp
  · exact stepAck_writers hp
  · exact stepSummary_writers hp
  · exact stepFinish_writers hp

theorem resetBlock_writers (d : Option Access) (s : State) : NamedWriters .reset s (resetBlock d s) := by
  constructor <;> simp [resetBlock]

theorem step_writers {s t : State} (h : step s = .next t) : NamedWriters s.cause { s with sched := s.sched.tail } t := by
  obtain ⟨a, hc, rfl⟩ | ⟨i, hc, ht⟩ | ⟨-, c, rfl⟩ | ⟨v, hc, ht⟩ | ⟨-, rfl⟩ | ⟨-, rfl⟩ | ⟨hc, rfl⟩ | ⟨d, hc, rfl⟩ :=
    step_by_cause h
  · exact hc ▸ busRead_writers a _
  · exact hc ▸ exec_writers ht
  · exact { NamedWriters.refl _ _ with }
  · exact hc ▸ drawWrite_writers ht
  · exact NamedWriters.refl _ _
  · exact NamedWriters.refl _ _
  · exact hc ▸ phaseStep_writers { s with sched := s.sched.tail }
  · exact hc ▸ resetBlock_writers d _

/-- Settles O55: each cause writes only the fields it is named for, and the error latch has its own rule. -/
theorem onlyNamedWritersChangeState : Obligations.OnlyNamedWritersChangeState := by
  intro s t h
  have hw := step_writers h
  have hlatch : t.err ≠ s.err ∨ t.errcode ≠ s.errcode →
      (s.err = false ∧ ∃ e, t = raiseError e { s with sched := s.sched.tail }) ∨
        s.cause = .command .clrErr ∨ s.cause = .reset :=
    fun hne => (step_errorLatch h).resolve_left fun ⟨herr, hcode⟩ => hne.elim (· herr) (· hcode)
  exact ⟨hw.cfg, hw.sched, hw.bitbuf, hw.ftab, hw.ctab, hw.nframes, hw.crc, hw.sum, hw.w, hw.stats, hw.counters, hw.drawSlot,
    hw.evq, hw.done, hw.caphit, hlatch, hw.rdata, hw.resets⟩

end Sys2Proof.Machine
end

section
/-! SUPPORT. The host port: the access at each address, and the step that takes an access off the schedule (R60 to R64). -/

namespace Sys2Proof.Machine

theorem regAt_eq_some_iff {a : PortAddr} {r : Reg} : regAt a = some r ↔ a = r.addr :=
  ⟨fun h => (addr_of_regAt h).symm, fun h => h ▸ regAt_addr r⟩

theorem step_of_sched {s : State} {tr : Transition} {rest : List Transition} (h : s.sched = tr :: rest) :
    step s = transition tr { s with sched := rest } := by
  rw [step, h]

theorem commandWrite_of_decode {v : Word} {i : Instr} (h : decode v = .ok i) (s : State) : commandWrite v s = exec i s := by
  rw [commandWrite, h]

theorem busWrite_cmd (v : Word) (s : State) : busWrite Reg.cmd.addr v s = commandWrite v s := by
  rw [busWrite, regAt_cmd]

theorem busWrite_draw (v : Word) (s : State) : busWrite Reg.draw.addr v s = drawWrite v s := by
  rw [busWrite, regAt_draw]

theorem busWrite_ignored {a : PortAddr} (hcmd : a ≠ Reg.cmd.addr) (hdraw : a ≠ Reg.draw.addr) (v : Word) (s : State) :
    busWrite a v s = .next s := by
  unfold busWrite
  split
  · exact absurd (regAt_eq_some_iff.1 ‹_›) hcmd
  · exact absurd (regAt_eq_some_iff.1 ‹_›) hdraw
  · rfl

theorem busRead_evtData (s : State) :
    busRead Reg.evtData.addr s = { s with rdata := s.evq.headD 0#32, evq := s.evq.tail } := by
  rw [busRead, readWord_addr, if_pos regAt_evtData, readReg]

theorem busRead_of_ne_evtData {a : PortAddr} (h : a ≠ Reg.evtData.addr) (s : State) :
    busRead a s = { s with rdata := readWord a s } := by
  rw [busRead, if_neg (mt regAt_eq_some_iff.1 h)]

/-- Taking a command's word off the schedule runs the command (R62, R64). -/
theorem step_of_sched_command {s : State} {v : Word} {i : Instr} {rest : List Transition} (hd : decode v = .ok i)
    (h : s.sched = .host (.write Reg.cmd.addr v) :: rest) : step s = exec i { s with sched := rest } :=
  calc step s
    _ = busWrite Reg.cmd.addr v { s with sched := rest } := step_of_sched h
    _ = commandWrite v { s with sched := rest } := busWrite_cmd v _
    _ = exec i { s with sched := rest } := commandWrite_of_decode hd _

/-- A word of 32 bits is scheduled whole (log 3). -/
theorem withFetchWord_sched (s : State) (v : Word) :
    (s.withFetchWord 32 v.toNat).sched = .host (.write Reg.cmd.addr v) :: s.sched := by
  have hv : BitVec.ofNat 32 (v.toNat % 2 ^ 32) = v := by rw [Nat.mod_eq_of_lt v.isLt, BitVec.ofNat_toNat, BitVec.setWidth_eq]
  rw [State.withFetchWord, hv]

/-- Settles O6: a CMD write at the head of the schedule issues its word, and `withFetchWord` puts one there. -/
theorem stepRunsDecodedCommand : Obligations.StepRunsDecodedCommand :=
  fun s v _ _ hd => ⟨step_of_sched_command hd, step_of_sched_command hd (withFetchWord_sched s v)⟩

/-- Settles O9: CMD and DRAW are the two addresses at which a write acts. -/
theorem portWritesActOnlyAtCmdAndDraw : Obligations.PortWritesActOnlyAtCmdAndDraw := by
  intro a v s
  refine ⟨?_, ?_, fun hcmd hdraw => busWrite_ignored hcmd hdraw v s⟩
  · rintro rfl
    exact busWrite_cmd v s
  · rintro rfl
    exact busWrite_draw v s

/-- Settles O10: a read of EVT_DATA takes the head of the FIFO and leaves its tail, which an empty FIFO has as 0 and itself; a read
of another address leaves the FIFO. -/
theorem onlyEventDataReadPops : Obligations.OnlyEventDataReadPops := by
  intro s a
  have hpop : hostAccess (.read 3#6) s = .next { s with rdata := s.evq.headD 0#32, evq := s.evq.tail } :=
    congrArg Host.Outcome.next (busRead_evtData s)
  refine ⟨fun w q hq => ?_, fun hq => ?_, fun ha => congrArg Host.Outcome.next (busRead_of_ne_evtData ha s)⟩
  · rw [hpop, hq, List.headD_cons, List.tail_cons]
  · rw [hpop, hq, List.headD_nil, List.tail_nil, ← hq]

end Sys2Proof.Machine
end

section
/-! SUPPORT. The command words: the opcode map, the reserved operand bits, and the decoder and the encoder as inverses
(R80 to R84, R97). -/

namespace Sys2Proof

/-! The two fields of a word (R80) -/

theorem opcField_append_opndField (v : Word) : opcField v ++ opndField v = v :=
  BitVec.extractLsb'_append_extractLsb' (w := 8) (len := 24)

theorem toNat_opcField (v : Word) : (opcField v).toNat = v.toNat / 2 ^ 24 := by
  rw [opcField, BitVec.extractLsb'_toNat, Nat.shiftRight_eq_div_pow]
  omega

theorem toNat_opndField (v : Word) : (opndField v).toNat = v.toNat % 2 ^ 24 := by
  rw [opndField, BitVec.extractLsb'_toNat, Nat.shiftRight_zero]

/-! The opcode map (R83) -/

theorem opcodeOf_eq_some_iff {b : BitVec 8} {o : Opcode} : opcodeOf b = some o ↔ o.code = b :=
  ⟨fun h => by simpa using List.find?_some h, fun h => h ▸ Laws.opcodeOf_code o⟩

/-- The values of OPC that name no command (R84). -/
theorem opcodeOf_eq_none_iff {b : BitVec 8} :
    opcodeOf b = none ↔ (0x02 ≤ b.toNat ∧ b.toNat ≤ 0x0F) ∨ (0x13 ≤ b.toNat ∧ b.toNat ≤ 0x1F) ∨
      (0x23 ≤ b.toNat ∧ b.toNat ≤ 0x2F) ∨ (0x32 ≤ b.toNat ∧ b.toNat ≤ 0x3F) ∨ 0x45 ≤ b.toNat := by
  revert b; decide

/-! The operand fields and the reserved bits above them (R82) -/

/-- The number of operand bits the fields of a command take, from bit 0 up (R82). -/
def Opcode.fieldBits : Opcode → Nat
  | .nop | .clrErr | .srcClear | .run | .crcInit | .cksInit | .wClear | .stuff | .unstuff => 0
  | .loadb | .crcByte | .cksAdd => 8
  | .crcBit => 1
  | .wAppend => 20
  | .frameLoad => 16

theorem Opcode.resvMask_eq (o : Opcode) : o.resvMask = BitVec.allOnes 24 <<< o.fieldBits := by cases o <;> decide

/-- The reserved bits are clear when the operand fits its fields. -/
theorem and_resvMask_eq_zero_iff {p : BitVec 24} {o : Opcode} :
    p &&& o.resvMask = 0#24 ↔ p.toNat < 2 ^ o.fieldBits := by
  have hle : p.toNat / 2 ^ o.fieldBits * 2 ^ o.fieldBits < 2 ^ 24 := (Nat.div_mul_le_self ..).trans_lt p.isLt
  rw [Opcode.resvMask_eq, ← BitVec.shiftLeft_ushiftRight, BitVec.toNat_eq, BitVec.toNat_shiftLeft,
    BitVec.toNat_ushiftRight, Nat.shiftLeft_eq, Nat.shiftRight_eq_div_pow, Nat.mod_eq_of_lt hle]
  simp [Nat.div_eq_zero_iff]

/-- No command has an operand bit outside its fields (R97). -/
theorem Instr.toNat_operand_lt (i : Instr) : i.operand.toNat < 2 ^ i.opcode.fieldBits := by
  have field {k : Nat} (x : BitVec k) (hk : k ≤ 24) : (x.setWidth 24).toNat < 2 ^ k :=
    (BitVec.toNat_setWidth_of_le hk).trans_lt x.isLt
  cases i with
  | loadb b | crcByte b | cksAdd b => exact field b (by decide)
  | crcBit b => exact field (BitVec.ofBool b) (by decide)
  | wAppend n v => exact field (BitVec.ofNat 4 (n - 1) ++ v) (by decide)
  | frameLoad k => exact field k (by decide)
  | _ => decide

/-! A command's fields put in place and read back (R82) -/

theorem opcode_instrOf (o : Opcode) (p : BitVec 24) : (instrOf o p).opcode = o := by cases o <;> rfl

theorem wellFormed_instrOf (o : Opcode) (p : BitVec 24) : (instrOf o p).wellFormed = true := by
  cases o with
  | wAppend =>
    have := (p.extractLsb' 16 4).isLt
    simp only [instrOf, Instr.wellFormed, Bool.and_eq_true, decide_eq_true_eq]
    omega
  | _ => rfl

theorem setWidth_extractLsb'_of_lt {k w : Nat} {p : BitVec w} (h : p.toNat < 2 ^ k) :
    (p.extractLsb' 0 k).setWidth w = p := by
  refine BitVec.eq_of_toNat_eq ?_
  rw [BitVec.toNat_setWidth, BitVec.extractLsb'_toNat, Nat.shiftRight_zero, Nat.mod_eq_of_lt h, Nat.mod_eq_of_lt p.isLt]

/-- The fields of a well-formed command's operand are its operands. -/
theorem instrOf_operand {i : Instr} (h : i.wellFormed = true) : instrOf i.opcode i.operand = i := by
  cases i with
  | loadb _ | crcByte _ | cksAdd _ | frameLoad _ =>
    simp [Instr.opcode, Instr.operand, instrOf, BitVec.extractLsb'_setWidth_of_le]
  | crcBit b => cases b <;> rfl
  | wAppend n v =>
    obtain ⟨h1, h16⟩ : 1 ≤ n ∧ n ≤ 16 := by simpa [Instr.wellFormed] using h
    have hn : n - 1 < 2 ^ 4 := by omega
    simp only [Instr.opcode, Instr.operand, instrOf]
    rw [BitVec.extractLsb'_setWidth_of_le (by decide), BitVec.extractLsb'_append_eq_left,
      BitVec.extractLsb'_setWidth_of_le (by decide), BitVec.extractLsb'_append_eq_right,
      BitVec.toNat_ofNat, Nat.mod_eq_of_lt hn, Nat.sub_add_cancel h1]
  | _ => rfl

/-- An operand with no reserved bit set is what its fields make of it. -/
theorem operand_instrOf {o : Opcode} {p : BitVec 24} (h : p.toNat < 2 ^ o.fieldBits) : (instrOf o p).operand = p := by
  cases o with
  | loadb | crcByte | cksAdd | frameLoad => exact setWidth_extractLsb'_of_lt h
  | crcBit =>
    have hbit : BitVec.ofBool (p.getLsbD 0) = p.extractLsb' 0 1 := by
      ext i hi
      obtain rfl : i = 0 := Nat.lt_one_iff.1 hi
      simp
    exact (congrArg (BitVec.setWidth 24) hbit).trans (setWidth_extractLsb'_of_lt h)
  | wAppend =>
    have hfields : p.extractLsb' 16 4 ++ p.extractLsb' 0 16 = p.extractLsb' 0 20 :=
      BitVec.extractLsb'_append_extractLsb'_eq_extractLsb' rfl
    simp only [instrOf, Instr.operand]
    rw [Nat.add_sub_cancel, BitVec.ofNat_toNat, BitVec.setWidth_eq, hfields]
    exact setWidth_extractLsb'_of_lt h
  | _ => exact (BitVec.eq_of_toNat_eq (Nat.lt_one_iff.1 h)).symm

/-! The decoder (R81, R83) -/

/-- The words that decode: an assigned opcode, and an operand that fits its fields. -/
theorem decode_eq_ok_iff {v : Word} {i : Instr} :
    decode v = .ok i ↔
      ∃ o : Opcode, o.code = opcField v ∧ (opndField v).toNat < 2 ^ o.fieldBits ∧ instrOf o (opndField v) = i := by
  simp only [← opcodeOf_eq_some_iff, ← and_resvMask_eq_zero_iff]
  unfold decode
  split
  · simp [*]
  · split <;> simp [*]

/-- Settles O2: the word's opcode is the command's, its operand has no reserved bit set, and its fields are the operands. -/
theorem decodeOfEncodeIsIdentity : Obligations.DecodeOfEncodeIsIdentity := by
  intro i h
  have hopnd : opndField (encode i) = i.operand := Laws.opndField_append ..
  refine decode_eq_ok_iff.2 ⟨i.opcode, (Laws.opcField_append ..).symm, ?_, ?_⟩
  · rw [hopnd]; exact i.toNat_operand_lt
  · rw [hopnd]; exact instrOf_operand h

/-- Settles O3: the fields of the word, put in place, are the word. -/
theorem encodeOfDecodeIsIdentity : Obligations.EncodeOfDecodeIsIdentity := by
  intro v i h
  obtain ⟨o, hcode, hfits, rfl⟩ := decode_eq_ok_iff.1 h
  refine ⟨wellFormed_instrOf .., ?_⟩
  rw [encode, opcode_instrOf, operand_instrOf hfits, hcode, opcField_append_opndField]

/-- Settles O1: eleven closed words. -/
theorem sampleWordsDecode : Obligations.SampleWordsDecode := by
  unfold Obligations.SampleWordsDecode
  decide

end Sys2Proof
end

section
/-! SUPPORT. The checks of a CMD write: BUSY, then BAD_CMD, then BAD_ARG, then the command (R81, R84). -/

namespace Sys2Proof.Machine

/-! What a word decodes to, by the check it fails (R81) -/

theorem decode_of_unassigned {v : Word} (h : opcodeOf (opcField v) = none) : decode v = .error .badCmd := by
  rw [decode, h]

theorem decode_of_reserved {v : Word} {o : Opcode} (ho : opcodeOf (opcField v) = some o)
    (hp : opndField v &&& o.resvMask ≠ 0#24) : decode v = .error .badArg := by
  rw [decode, ho]
  exact if_neg hp

theorem decode_of_legal {v : Word} {o : Opcode} (ho : opcodeOf (opcField v) = some o)
    (hp : opndField v &&& o.resvMask = 0#24) : decode v = .ok (instrOf o (opndField v)) := by
  rw [decode, ho]
  exact if_pos hp

/-! The error a CMD write raises (R81, R301) -/

theorem acceptedWhileBusy_iff {b : BitVec 8} : acceptedWhileBusy b = true ↔ b ∈ [0x00#8, 0x01#8] := by
  simp [acceptedWhileBusy, Opcode.code]

theorem exec_of_busy {s : State} (h : s.busy = true) {i : Instr} (hnop : i ≠ .nop) (hclr : i ≠ .clrErr) :
    exec i s = raised .busy s := by
  cases i with
  | nop => exact absurd rfl hnop
  | clrErr => exact absurd rfl hclr
  | _ => exact whenIdle_of_busy h _

/-- The error that names a failed check of the decoder (R300). -/
def errorCauseOf : DecodeError → ErrorCause
  | .badCmd => .badCmd
  | .badArg => .badArg

theorem illegalCommand_eq (v : Word) (e : DecodeError) (s : State) :
    illegalCommand v e s = raised (if s.busy && !acceptedWhileBusy (opcField v) then .busy else errorCauseOf e) s := by
  unfold illegalCommand
  split
  · rfl
  · cases e <;> rfl

/-- While a run is in progress every word but those of NOP's and CLR_ERR's opcodes raises BUSY, legal or not. -/
theorem commandWrite_of_busy {v : Word} {s : State} (h : s.busy = true) (hop : opcField v ∉ [0x00#8, 0x01#8]) :
    commandWrite v s = raised .busy s := by
  rw [commandWrite]
  split
  · rename_i i hd
    obtain ⟨o, hcode, -, rfl⟩ := decode_eq_ok_iff.1 hd
    rw [← hcode] at hop
    refine exec_of_busy h (fun hi => ?_) fun hi => ?_
    · obtain rfl : o = .nop := (opcode_instrOf o _).symm.trans (congrArg Instr.opcode hi)
      exact hop (by decide)
    · obtain rfl : o = .clrErr := (opcode_instrOf o _).symm.trans (congrArg Instr.opcode hi)
      exact hop (by decide)
  · rw [← acceptedWhileBusy_iff, Bool.not_eq_true] at hop
    rw [illegalCommand_eq, h, hop]
    rfl

/-- A word that passes the BUSY check and does not decode raises the error of the decoder's check. -/
theorem commandWrite_of_decode_error {v : Word} {s : State} {e : DecodeError} (hd : decode v = .error e)
    (h : s.busy = true → opcField v ∈ [0x00#8, 0x01#8]) : commandWrite v s = raised (errorCauseOf e) s := by
  rw [commandWrite, hd]
  refine (illegalCommand_eq v e s).trans ?_
  cases hb : s.busy with
  | false => rfl
  | true => rw [acceptedWhileBusy_iff.2 (h hb)]; rfl

/-! The order of the checks (R81) -/

/-- R82's masks by R83's opcodes, as numbers. -/
def maskTable (opc : BitVec 8) : Option (BitVec 24) :=
  if opc ∈ [0x00#8, 0x01#8, 0x10#8, 0x12#8, 0x20#8, 0x30#8, 0x40#8, 0x42#8, 0x43#8] then some 0xFFFFFF#24
  else if opc ∈ [0x11#8, 0x22#8, 0x31#8] then some 0xFFFF00#24
  else if opc = 0x21#8 then some 0xFFFFFE#24
  else if opc = 0x41#8 then some 0xF00000#24
  else if opc = 0x44#8 then some 0xFF0000#24
  else none

theorem maskTable_eq (b : BitVec 8) : maskTable b = (opcodeOf b).map Opcode.resvMask := by
  revert b; decide

/-- Settles O5: a word that passes the BUSY check is judged by its opcode and then by its opcode's mask. -/
theorem commandChecksInOrder : Obligations.CommandChecksInOrder := by
  intro v s opc opnd mask
  have hmask : mask = (opcodeOf (opcField v)).map Opcode.resvMask := maskTable_eq opc
  clear_value mask
  split
  · rename_i h
    exact commandWrite_of_busy h.1 h.2
  · rename_i h
    have hpass : s.busy = true → opcField v ∈ [0x00#8, 0x01#8] := fun hb => by_contra fun hop => h ⟨hb, hop⟩
    cases ho : opcodeOf (opcField v) with
    | none =>
      rw [ho] at hmask
      subst hmask
      exact commandWrite_of_decode_error (decode_of_unassigned ho) hpass
    | some o =>
      rw [ho] at hmask
      subst hmask
      by_cases hp : opndField v &&& o.resvMask = 0#24
      · have hd := decode_of_legal ho hp
        exact (if_neg (not_not.2 hp)).mpr ⟨_, hd, commandWrite_of_decode hd s⟩
      · exact (if_pos hp).mpr (commandWrite_of_decode_error (decode_of_reserved ho hp) hpass)

/-! The illegal words (R84) -/

/-- The words with a reserved operand bit set, by R82's masks and R83's opcodes as numbers. -/
def ReservedSet (opc opnd : Nat) : Prop :=
  (opc ∈ [0x00, 0x01, 0x10, 0x12, 0x20, 0x30, 0x40, 0x42, 0x43] ∧ opnd ≠ 0) ∨
    (opc ∈ [0x11, 0x22, 0x31] ∧ opnd / 2 ^ 8 ≠ 0) ∨ (opc = 0x21 ∧ opnd / 2 ≠ 0) ∨ (opc = 0x41 ∧ opnd / 2 ^ 20 ≠ 0) ∨
    (opc = 0x44 ∧ opnd / 2 ^ 16 ≠ 0)

theorem reservedSet_code_iff (o : Opcode) (p : BitVec 24) :
    ReservedSet o.code.toNat p.toNat ↔ p &&& o.resvMask ≠ 0#24 := by
  rw [Ne, and_resvMask_eq_zero_iff, Nat.not_lt]
  cases o <;> simp [ReservedSet, Opcode.code, Opcode.fieldBits] <;> omega

/-- Only an assigned opcode has reserved bits. -/
theorem opcodeOf_isSome_of_reservedSet {b : BitVec 8} {n : Nat} (h : ReservedSet b.toNat n) :
    ∃ o, opcodeOf b = some o := by
  refine Option.ne_none_iff_exists'.1 fun hnone => ?_
  have hrange := opcodeOf_eq_none_iff.1 hnone
  simp only [ReservedSet, List.mem_cons, List.not_mem_nil, or_false] at h
  omega

/-- Settles O4: with no run in progress a word's opcode, and then its opcode's mask, decide. -/
theorem illegalWordsRaiseAndDoNothingElse : Obligations.IllegalWordsRaiseAndDoNothingElse := by
  refine ⟨by set_option maxRecDepth 4000 in decide, fun v s hidle => ?_⟩
  have hpass : s.busy = true → opcField v ∈ [0x00#8, 0x01#8] := fun hb => absurd (hidle.symm.trans hb) Bool.false_ne_true
  rw [← toNat_opcField, ← toNat_opndField]
  intro opc opnd unassigned reservedSet
  refine ⟨fun h => ?_, fun h => ?_, fun hun hres => ?_⟩
  · exact commandWrite_of_decode_error (decode_of_unassigned (opcodeOf_eq_none_iff.2 h)) hpass
  · obtain ⟨o, ho⟩ := opcodeOf_isSome_of_reservedSet h
    have hcode : opcField v = o.code := (opcodeOf_eq_some_iff.1 ho).symm
    have hp : opndField v &&& o.resvMask ≠ 0#24 := (reservedSet_code_iff o _).1 (hcode ▸ h)
    exact commandWrite_of_decode_error (decode_of_reserved ho hp) hpass
  · obtain ⟨o, ho⟩ := Option.ne_none_iff_exists'.1 (mt opcodeOf_eq_none_iff.1 hun)
    have hcode : opcField v = o.code := (opcodeOf_eq_some_iff.1 ho).symm
    have hp : opndField v &&& o.resvMask = 0#24 := not_not.1 (mt (reservedSet_code_iff o _).2 (hcode ▸ hres))
    exact ⟨_, decode_of_legal ho hp⟩

end Sys2Proof.Machine
end

section
/-! SUPPORT. The host's written forms: the command assembler (R97) and the pseudo-instructions (R99). -/

namespace Sys2Proof.Machine

/-! The command assembler (R97) -/

/-- What the assembler accepts has the given mnemonic and exactly the given operands. -/
theorem assemble_eq_some {o : Opcode} {ns : List Nat} {i : Instr} (h : assemble o ns = some i) :
    i.wellFormed = true ∧ i.opcode = o ∧ operandsOf i = ns := by
  have byte {b : Nat} (hb : b ≤ 255) : (BitVec.ofNat 8 b).toNat = b := Nat.mod_eq_of_lt (by omega)
  have half {b : Nat} (hb : b ≤ 0xFFFF) : (BitVec.ofNat 16 b).toNat = b := Nat.mod_eq_of_lt (by omega)
  cases o with
  | loadb | crcByte | cksAdd =>
    match ns, h with
    | [], h | _ :: _ :: _, h => cases h
    | [b], h =>
      obtain ⟨hb, ⟨⟩⟩ := Option.ite_none_right_eq_some.1 h
      exact ⟨rfl, rfl, congrArg (· :: []) (byte hb)⟩
  | crcBit =>
    match ns, h with
    | [], h | _ :: _ :: _, h => cases h
    | [b], h =>
      obtain ⟨hb, ⟨⟩⟩ := Option.ite_none_right_eq_some.1 h
      obtain rfl | rfl : b = 0 ∨ b = 1 := by omega
      · exact ⟨rfl, rfl, rfl⟩
      · exact ⟨rfl, rfl, rfl⟩
  | wAppend =>
    match ns, h with
    | [], h | [_], h | _ :: _ :: _ :: _, h => cases h
    | [n, v], h =>
      obtain ⟨⟨h1, h16, hv⟩, ⟨⟩⟩ := Option.ite_none_right_eq_some.1 h
      exact ⟨by simp [Instr.wellFormed, h1, h16], rfl, congrArg (n :: · :: []) (half hv)⟩
  | frameLoad =>
    match ns, h with
    | [], h | _ :: _ :: _, h => cases h
    | [k], h =>
      obtain ⟨hk, ⟨⟩⟩ := Option.ite_none_right_eq_some.1 h
      exact ⟨rfl, rfl, congrArg (· :: []) (half hk)⟩
  | _ =>
    match ns, h with
    | _ :: _, h => cases h
    | [], h =>
      cases h
      exact ⟨rfl, rfl, rfl⟩

/-- The written form of a well-formed command is its mnemonic and its operands. -/
theorem assemble_operandsOf {i : Instr} (h : i.wellFormed = true) : assemble i.opcode (operandsOf i) = some i := by
  cases i with
  | loadb b | crcByte b | cksAdd b =>
    have := b.isLt
    simp only [Instr.opcode, operandsOf, assemble, BitVec.ofNat_toNat, BitVec.setWidth_eq]
    exact if_pos (by omega)
  | crcBit b => cases b <;> rfl
  | wAppend n v =>
    have hv := v.isLt
    have hn : 1 ≤ n ∧ n ≤ 16 := by simpa [Instr.wellFormed] using h
    simp only [Instr.opcode, operandsOf, assemble, BitVec.ofNat_toNat, BitVec.setWidth_eq]
    exact if_pos (by omega)
  | frameLoad k =>
    have := k.isLt
    simp only [Instr.opcode, operandsOf, assemble, BitVec.ofNat_toNat, BitVec.setWidth_eq]
    exact if_pos (by omega)
  | _ => rfl

/-- Settles O59: what the assembler accepts keeps its operands, and a command's operands are in range. -/
theorem assemblerNeverTruncates : Obligations.AssemblerNeverTruncates :=
  ⟨fun _ _ _ h => assemble_eq_some h, fun _ h => assemble_operandsOf h⟩

/-! Commands issued one after the other (R64) -/

theorem issue_cons_of_next {i : Instr} {s t : State} (h : exec i s = .next t) (is : List Instr) :
    issue (i :: is) s = issue is t := by
  rw [issue, h]

theorem issue_pair {i j : Instr} {s t u : State} (hi : exec i s = .next t) (hj : exec j t = .next u) :
    issue [i, j] s = .next u :=
  (issue_cons_of_next hi _).trans (issue_cons_of_next hj _)

/-! The commands that the pseudo-instructions expand to, on an idle block (R111, R133, R152, R181) -/

theorem exec_loadb_of_fits {s : State} (hidle : s.busy = false) (b : Byte)
    (hfits : s.bitbuf.length + 8 ≤ 100 * s.cfg.maxDataFrames) :
    exec (.loadb b) s = .next { s with bitbuf := s.bitbuf ++ bitsMSB b 8 } :=
  (whenIdle_of_idle hidle _).trans (if_neg (Nat.not_lt.2 hfits))

theorem exec_crcByte_of_idle {s : State} (hidle : s.busy = false) (b : Byte) :
    exec (.crcByte b) s = .next { s with crc := crcFrom s.crc (bitsMSB b 8) } :=
  whenIdle_of_idle hidle _

theorem exec_cksAdd_of_idle {s : State} (hidle : s.busy = false) (b : Byte) :
    exec (.cksAdd b) s = .next { s with sum := cksAdd s.sum b } :=
  whenIdle_of_idle hidle _

theorem exec_wAppend_of_fits {s : State} (hidle : s.busy = false) {n : Nat} (v : BitVec 16)
    (hfits : s.w.length + n ≤ 256) : exec (.wAppend n v) s = .next { s with w := s.w ++ bitsMSB v n } :=
  (whenIdle_of_idle hidle _).trans (if_neg (Nat.not_lt.2 hfits))

/-! LOADS (R99) -/

theorem issue_pseudoLoads {s : State} (hidle : s.busy = false) (bs : List Byte)
    (hfits : s.bitbuf.length + 8 * bs.length ≤ 100 * s.cfg.maxDataFrames) :
    issue (pseudoLoads bs) s = .next { s with bitbuf := s.bitbuf ++ bs.flatMap fun b => bitsMSB b 8 } := by
  induction bs generalizing s with
  | nil => simp [pseudoLoads, issue]
  | cons b bs ih =>
    rw [List.length_cons] at hfits
    rw [List.flatMap_cons, ← List.append_assoc]
    refine (issue_cons_of_next (exec_loadb_of_fits hidle b (by omega)) _).trans ?_
    refine ih (s := { s with bitbuf := s.bitbuf ++ bitsMSB b 8 }) hidle ?_
    simp only [List.length_append, length_bitsMSB]
    omega

/-! CRC_HALF and CKS_HALF (R99) -/

/-- The 16 bits of a half word are the 8 of its high byte and then the 8 of its low byte. -/
theorem bitsMSB_half (v : BitVec 16) :
    bitsMSB v 16 = bitsMSB (v.extractLsb' 8 8) 8 ++ bitsMSB (v.extractLsb' 0 8) 8 := by
  simp [bitsMSB]

theorem crcFrom_append (c : BitVec 16) (x y : Bits) : crcFrom c (x ++ y) = crcFrom (crcFrom c x) y := List.foldl_append

theorem issue_pseudoCrcHalf {s : State} (hidle : s.busy = false) (v : BitVec 16) :
    issue (pseudoCrcHalf v) s = .next { s with crc := crcFrom s.crc (bitsMSB v 16) } := by
  rw [bitsMSB_half, crcFrom_append]
  exact issue_pair (exec_crcByte_of_idle hidle _)
    (exec_crcByte_of_idle (s := { s with crc := crcFrom s.crc (bitsMSB (v.extractLsb' 8 8) 8) }) hidle _)

theorem issue_pseudoCksHalf {s : State} (hidle : s.busy = false) (v : BitVec 16) :
    issue (pseudoCksHalf v) s =
      .next { s with sum := cksAdd (cksAdd s.sum (v.extractLsb' 8 8)) (v.extractLsb' 0 8) } :=
  issue_pair (exec_cksAdd_of_idle hidle _)
    (exec_cksAdd_of_idle (s := { s with sum := cksAdd s.sum (v.extractLsb' 8 8) }) hidle _)

/-! W_BITS (R99) -/

/-- Shifting a bit in at the low end appends it to the sequence, as long as no bit of it is shifted out. -/
theorem bitsMSB_shiftLeft_or (v : BitVec 16) (b : Bool) {n : Nat} (h : n < 16) :
    bitsMSB (v <<< 1 ||| (BitVec.ofBool b).setWidth 16) (n + 1) = bitsMSB v n ++ [b] := by
  induction n with
  | zero => simp [bitsMSB]
  | succ n ih =>
    rw [bitsMSB, ih (by omega), bitsMSB, List.cons_append]
    congr 1
    simp [h, BitVec.getLsbD_eq_getElem (Nat.lt_of_succ_lt h)]

theorem bitsMSB_valueOfBits (x : Bits) (h : x.length ≤ 16) : bitsMSB (valueOfBits x) x.length = x := by
  induction x using List.reverseRecOn with
  | nil => rfl
  | append_singleton x b ih =>
    rw [List.length_append, List.length_singleton] at h ⊢
    rw [valueOfBits, List.foldl_append, List.foldl_cons, List.foldl_nil, bitsMSB_shiftLeft_or _ _ (by omega)]
    rw [← valueOfBits, ih (by omega)]

/-- Slicing a string for W_APPEND loses none of its bits, for any bound that its slices need. -/
theorem issue_bitSlices {s : State} (hidle : s.busy = false) (fuel : Nat) (x : Bits) (hfuel : x.length ≤ fuel)
    (hfits : s.w.length + x.length ≤ 256) : issue (bitSlices fuel x) s = .next { s with w := s.w ++ x } := by
  induction fuel generalizing s x with
  | zero =>
    obtain rfl := List.length_eq_zero_iff.1 (Nat.le_zero.1 hfuel)
    simp [bitSlices, issue]
  | succ fuel ih =>
    rw [bitSlices]
    split
    · rename_i hx
      simp [hx, issue]
    · rename_i hx
      have hpos := List.length_pos_iff.2 hx
      have hsplit := congrArg List.length (List.take_append_drop 16 x)
      rw [List.length_append] at hsplit
      have hexec := exec_wAppend_of_fits hidle (valueOfBits (x.take 16)) (n := (x.take 16).length) (by omega)
      rw [bitsMSB_valueOfBits _ (List.length_take_le ..)] at hexec
      rw [issue_cons_of_next hexec, ← List.take_append_drop 16 x, ← List.append_assoc, List.take_append_drop]
      refine ih (s := { s with w := s.w ++ x.take 16 }) hidle _ ?_ ?_
      · rw [List.length_drop]
        omega
      · simp only [List.length_append]
        omega

theorem issue_pseudoWBits {s : State} (hidle : s.busy = false) (x : Bits) (hfits : s.w.length + x.length ≤ 256) :
    issue (pseudoWBits x) s = .next { s with w := s.w ++ x } :=
  issue_bitSlices hidle x.length x (Nat.le_refl _) hfits

/-- Settles O60: each expansion is issued command by command, on a block that stays idle. -/
theorem pseudoInstructionsRunAsSequences : Obligations.PseudoInstructionsRunAsSequences :=
  fun _ hidle => ⟨issue_pseudoLoads hidle, issue_pseudoCrcHalf hidle, issue_pseudoCksHalf hidle, issue_pseudoWBits hidle⟩

end Sys2Proof.Machine
end

section
/-! SUPPORT. The events: the words of each, and the one event that the step of each phase pushes (R90 to R95, R232). -/

namespace Sys2Proof.Machine

/-! The events' words -/

/-- `h` is the header of an event of `n` payload words: its TYPE is one of the five, its NPAY is `n`, and the header of a DELIVERY has
an assigned KIND and does not say that the control frame was lost (R90, R93). -/
abbrev HeaderOf (h : Word) (n : Nat) : Prop :=
  let type := h.toNat / 2 ^ 28
  let npay := h.toNat / 2 ^ 24 % 16
  let kind := h.toNat / 2 ^ 20 % 8
  let ctl := h.toNat / 2 ^ 19 % 2
  1 ≤ type ∧ type ≤ 5 ∧ npay = n ∧ (npay = 0 ∨ npay = 1 ∨ npay = 8) ∧
    (type = 3 → kind ≤ 5 ∧ ¬ (kind = 1 ∧ ctl = 1))

/-- `ws` is one whole event, a header and the payload that the header announces. -/
def SelfFraming (ws : List Word) : Prop := ∃ h ps, ws = h :: ps ∧ HeaderOf h ps.length

theorem selfFraming_frameCrcEvent (i : Word) (c : BitVec 16) : SelfFraming (frameCrcEvent i c) :=
  ⟨_, _, rfl, show HeaderOf 0x11000000#32 1 by decide⟩

theorem selfFraming_summaryEvent (t : Stats) : SelfFraming (summaryEvent t) :=
  ⟨_, _, rfl, show HeaderOf 0x48000000#32 8 by decide⟩

theorem selfFraming_finishedEvent : SelfFraming finishedEvent := ⟨_, _, rfl, show HeaderOf 0x50000000#32 0 by decide⟩

/-- The two values in a CHECKSUM header stay below its TYPE and NPAY (R92). -/
theorem headerOf_checksum (sum : BitVec 8) :
    HeaderOf (0x20000000#32 ||| cksDiag sum <<< 8 ||| (cksResult sum).setWidth 32) 0 := by
  revert sum; decide

theorem selfFraming_checksumEvent (sum : BitVec 8) : SelfFraming (checksumEvent sum) :=
  ⟨_, _, rfl, headerOf_checksum sum⟩

theorem headerOf_delivery {k : Kind} {ctl : Bool} (h : k = .lost → ctl = false) : HeaderOf (deliveryHeader k ctl) 1 := by
  revert h
  cases k <;> cases ctl <;> decide

/-- Every DELIVERY but LOST of the control frame is one event (R93). -/
theorem selfFraming_delivery {k : Kind} {s : State} (h : k = .lost → s.ctl = false) : SelfFraming (delivery k s) :=
  ⟨_, _, rfl, headerOf_delivery h⟩

/-! What each step pushes (R234 to R240, R260, R261) -/

/-- `t` has nothing or one event after the events of `s`, in at most `room` words. -/
def PushesEvent (room : Nat) (s t : State) : Prop :=
  ∃ ws, t.evq = s.evq ++ ws ∧ ws.length ≤ room ∧ (ws = [] ∨ SelfFraming ws)

theorem PushesEvent.none {s t : State} (room : Nat) (h : t.evq = s.evq) : PushesEvent room s t :=
  ⟨[], by rw [h, List.append_nil], Nat.zero_le _, .inl rfl⟩

theorem PushesEvent.one {s t : State} {room : Nat} {ws : List Word} (h : t.evq = s.evq ++ ws) (hws : SelfFraming ws)
    (hroom : ws.length ≤ room) : PushesEvent room s t :=
  ⟨ws, h, hroom, .inr hws⟩

/-- Only a data frame takes the loss decision (R237). -/
theorem stepLoss_pushesEvent {s : State} (hdata : s.fidx < s.ndata) : PushesEvent 2 s (stepLoss s) := by
  have hctl : s.ctl = false := decide_eq_false (BitVec.ne_of_lt hdata)
  unfold stepLoss
  dsimp only
  split
  · exact .one (attemptFailed_evq _) (selfFraming_delivery fun _ => hctl) (Nat.le_refl 2)
  · exact .none 2 rfl

theorem stepCorr_pushesEvent (s : State) : PushesEvent 2 s (stepCorr s) := by
  unfold stepCorr
  dsimp only
  split <;> split
  · exact .one rfl (selfFraming_delivery nofun) (Nat.le_refl 2)
  · exact .none 2 rfl
  · exact .one rfl (selfFraming_delivery nofun) (Nat.le_refl 2)
  · exact .none 2 rfl

theorem stepAck_pushesEvent (s : State) : PushesEvent 2 s (stepAck s) := by
  unfold stepAck
  dsimp only
  split
  · exact .one (attemptFailed_evq _) (selfFraming_delivery nofun) (Nat.le_refl 2)
  · exact .one rfl (selfFraming_delivery nofun) (Nat.le_refl 2)

/-- The step of a phase pushes no more words than the phase waits for (R28, R233). -/
theorem phaseStep_pushesEvent {s : State} (h : s.controlInv) : PushesEvent s.phase.need s (phaseStep s) := by
  unfold phaseStep
  split <;> rename_i hp <;> rw [hp]
  · exact .none _ rfl
  · exact .one rfl (selfFraming_frameCrcEvent ..) (Nat.le_refl 2)
  · exact .one rfl (selfFraming_checksumEvent _) (Nat.le_refl 1)
  · exact .one rfl (selfFraming_delivery nofun) (Nat.le_refl 2)
  · obtain ⟨-, hdata, -⟩ := (controlInv_loss hp).1 h
    exact stepLoss_pushesEvent hdata
  · exact stepCorr_pushesEvent s
  · exact .one rfl (selfFraming_delivery nofun) (Nat.le_refl 2)
  · exact stepAck_pushesEvent s
  · exact .one rfl (selfFraming_summaryEvent _) (Nat.le_refl 9)
  · exact .one rfl selfFraming_finishedEvent (Nat.le_refl 1)

/-- Settles O47: an enabled step is its phase's. -/
theorem eventsAreSelfFraming : Obligations.EventsAreSelfFraming := by
  intro s h hen
  rw [sequencerStep_of_enabled hen]
  exact phaseStep_pushesEvent h.control

end Sys2Proof.Machine
end

section
/-! SUPPORT. The bit source: SRC_CLEAR and LOADB, and the number of frames that a run takes over the bytes loaded
(R110, R111, R114). -/

namespace Sys2Proof.Machine

/-! A command word given as a number, and one with a reserved operand bit set (R80, R82) -/

theorem encode_eq_ofNat (i : Instr) : encode i = BitVec.ofNat 32 (i.opcode.code.toNat * 2 ^ 24 + i.operand.toNat) := by
  refine BitVec.eq_of_toNat_eq ?_
  have hopc := i.opcode.code.isLt
  have hopnd := i.operand.isLt
  rw [encode, BitVec.toNat_append, ← Nat.shiftLeft_add_eq_or_of_lt hopnd, Nat.shiftLeft_eq, BitVec.toNat_ofNat,
    Nat.mod_eq_of_lt (by omega)]

/-- The opcode's number in place, plus the operand's, is a word of the command. -/
theorem decode_ofNat_add {i : Instr} (h : i.wellFormed = true) {opc opnd : Nat} (hopc : i.opcode.code.toNat * 2 ^ 24 = opc)
    (hopnd : i.operand.toNat = opnd) : decode (BitVec.ofNat 32 (opc + opnd)) = .ok i := by
  subst hopc hopnd
  exact encode_eq_ofNat i ▸ decodeOfEncodeIsIdentity i h

theorem commandWrite_of_reservedSet {v : Word} {s : State} (hidle : s.busy = false)
    (h : ReservedSet (v.toNat / 2 ^ 24) (v.toNat % 2 ^ 24)) : commandWrite v s = .next (raiseError .badArg s) :=
  (illegalWordsRaiseAndDoNothingElse.2 v s hidle).2.1 h

/-! SRC_CLEAR and LOADB on an idle block (R110, R111) -/

theorem exec_srcClear_of_idle {s : State} (hidle : s.busy = false) : exec .srcClear s = .next { s with bitbuf := [] } :=
  whenIdle_of_idle hidle _

theorem exec_loadb_of_full {s : State} (hidle : s.busy = false) (b : Byte)
    (hfull : s.bitbuf.length + 8 > 100 * s.cfg.maxDataFrames) : exec (.loadb b) s = .next (raiseError .overflow s) :=
  (whenIdle_of_idle hidle _).trans (if_pos hfull)

/-- Settles O17: both words carry their operand and nothing else, and LOADB asks whether its eight bits fit. -/
theorem bitSourceCommands : Obligations.BitSourceCommands := by
  refine ⟨by decide, fun b => ?_, fun v s hidle h => ?_, fun s b hbusy => ⟨?_, ?_⟩, fun s b hidle => ⟨?_, ?_, ?_⟩⟩
  · have hopnd : (Instr.loadb b).operand.toNat = b.toNat := BitVec.toNat_setWidth_of_le (by decide)
    exact decode_ofNat_add rfl (by decide : Opcode.loadb.code.toNat * 2 ^ 24 = 0x11000000) hopnd
  · refine commandWrite_of_reservedSet hidle ?_
    obtain ⟨hopc, hopnd⟩ | ⟨hopc, hopnd⟩ := h
    · exact .inl ⟨by rw [hopc]; decide, hopnd⟩
    · exact .inr (.inl ⟨by rw [hopc]; decide, hopnd⟩)
  · exact exec_of_busy hbusy nofun nofun
  · exact exec_of_busy hbusy nofun nofun
  · exact exec_srcClear_of_idle hidle
  · exact exec_loadb_of_full hidle b
  · exact exec_loadb_of_fits hidle b

/-! RUN over the bytes loaded (R114, R230) -/

theorem exec_run_of_idle {s : State} (hidle : s.busy = false) (herr : s.err = false) : exec .run s = .next (startRun s) :=
  (whenIdle_of_idle hidle _).trans (if_neg (by simp [herr]))

/-- A source that fits a legal buffer takes no more data frames than R8 allows, whatever the rest of the state. -/
theorem frameCount_le_of_fits {s : State} (hcfg : s.cfg.legal) (hfits : s.bitbuf.length ≤ s.cfg.maxBits) :
    frameCount s.bitbuf.length ≤ 65280 := by
  obtain ⟨-, hmax, -⟩ := hcfg
  simp only [frameCount, ceilDiv, payloadBits, Config.maxBits] at hfits ⊢
  omega

theorem startRun_ndata_of_le {s : State} (h : frameCount s.bitbuf.length ≤ 65280) :
    (startRun s).ndata.toNat = frameCount s.bitbuf.length :=
  Nat.mod_eq_of_lt (by omega)

theorem startRun_frames (s : State) : (startRun s).stats.frames.toNat = (startRun s).ndata.toNat + 1 := by
  have hn := (startRun s).ndata.isLt
  change ((startRun s).ndata.setWidth 32 + 1#32).toNat = _
  rw [BitVec.toNat_add, BitVec.toNat_setWidth_of_le (by decide)]
  exact Nat.mod_eq_of_lt (a := (startRun s).ndata.toNat + 1) (by omega)

theorem length_flatMap_bitsMSB (bs : List Byte) : (bs.flatMap fun b => bitsMSB b 8).length = 8 * bs.length := by
  simp [List.length_flatMap, Nat.mul_comm]

/-- Settles O56: the loads append 8 bits a byte, and RUN counts the frames of what they leave. -/
theorem frameCountLaw : Obligations.FrameCountLaw := by
  intro s bs hcfg hidle herr hempty hfits
  let t : State := { s with bitbuf := bs.flatMap fun b => bitsMSB b 8 }
  have hlen : t.bitbuf.length = 8 * bs.length := length_flatMap_bitsMSB bs
  have hload : issue (pseudoLoads bs) s = .next t := by
    simpa [hempty] using issue_pseudoLoads hidle bs (by simpa [hempty] using hfits)
  have hndata : (startRun t).ndata.toNat = (8 * bs.length + 99) / 100 := by
    rw [startRun_ndata_of_le (frameCount_le_of_fits (s := t) hcfg (hlen ▸ hfits)), hlen]
    rfl
  exact ⟨t, startRun t, hload, rfl, hlen, exec_run_of_idle hidle herr, hndata, startRun_frames t⟩

end Sys2Proof.Machine
end

section
/-! SUPPORT. The CRC-16 generator: its step on numbers, the CRC of a sequence in pieces, and the residue (R130 to R136). -/

namespace Sys2Proof.Machine

/-! One step, and a sequence bit by bit (R130) -/

theorem crcFrom_nil (c : BitVec 16) : crcFrom c [] = c := rfl

theorem crcFrom_cons (c : BitVec 16) (b : Bool) (s : Bits) : crcFrom c (b :: s) = crcFrom (crcStep c b) s := rfl

/-- R130's step on the register read as a number: double it, drop the carry, and compare the incoming bit with the top one. -/
theorem crcStep_eq (c : BitVec 16) (b : Bool) :
    crcStep c b =
      if (decide (0x8000 ≤ c.toNat) != b) = true then BitVec.ofNat 16 (2 * c.toNat) ^^^ 0x1021#16
      else BitVec.ofNat 16 (2 * c.toNat) := by
  have htop : c.getLsbD 15 = decide (0x8000 ≤ c.toNat) := c.msb_eq_getLsbD_last.symm.trans c.msb_eq_decide
  have hshift : c <<< 1 = BitVec.ofNat 16 (2 * c.toNat) := by
    refine BitVec.eq_of_toNat_eq ?_
    rw [BitVec.toNat_shiftLeft, BitVec.toNat_ofNat, Nat.shiftLeft_eq, Nat.pow_one, Nat.mul_comm]
  rw [crcStep, htop, hshift]

/-- A step whose incoming bit is the register's top bit only shifts. -/
theorem crcStep_top (c : BitVec 16) : crcStep c (c.getLsbD 15) = c <<< 1 := by
  rw [crcStep, Bool.xor_self, if_neg Bool.false_ne_true]

/-! The residue (R134) -/

/-- Once the register has shifted out all of `c` but its low `n` bits, feeding those shifts out the rest. -/
theorem crcFrom_shiftLeft_bitsMSB (c : BitVec 16) (n : Nat) (h : n ≤ 16) :
    crcFrom (c <<< (16 - n)) (bitsMSB c n) = 0#16 := by
  induction n with
  | zero => exact BitVec.shiftLeft_eq_zero (Nat.le_refl 16)
  | succ n ih =>
    have htop : (c <<< (16 - (n + 1))).getLsbD 15 = c.getLsbD n := by
      rw [BitVec.getLsbD_shiftLeft, show 15 - (16 - (n + 1)) = n by omega]
      simp
    have hshift : c <<< (16 - (n + 1)) <<< 1 = c <<< (16 - n) := by
      rw [← BitVec.shiftLeft_add, show 16 - (n + 1) + 1 = 16 - n by omega]
    rw [bitsMSB, crcFrom_cons, ← htop, crcStep_top, hshift]
    exact ih (Nat.le_of_succ_le h)

/-- Feeding the register its own 16 bits leaves 0. -/
theorem crcFrom_bitsMSB_self (c : BitVec 16) : crcFrom c (bitsMSB c 16) = 0#16 := by
  simpa using crcFrom_shiftLeft_bitsMSB c 16 (Nat.le_refl 16)

/-- The CRC of an all-zero payload (R136). -/
theorem crc16_zeros_payload : crc16 (zeros 100) = 0xCE98#16 := by
  set_option maxRecDepth 8000 in decide

/-- Settles O25: the step on numbers, the two values, feeding in pieces, and the residue as a sequence fed before its CRC. -/
theorem crcLaws : Obligations.CrcLaws := by
  refine ⟨fun c b s => ⟨?_, crcFrom_nil c⟩, crc16_zeros_payload, rfl, crcFrom_append _, fun s => ?_⟩
  · rw [crcFrom_cons, crcStep_eq]
  · rw [crc16, crcFrom_append]
    exact crcFrom_bitsMSB_self _

/-! CRC_INIT, CRC_BIT and CRC_BYTE (R131 to R133) -/

theorem exec_crcInit_of_idle {s : State} (hidle : s.busy = false) : exec .crcInit s = .next { s with crc := 0xFFFF#16 } :=
  whenIdle_of_idle hidle _

theorem exec_crcBit_of_idle {s : State} (hidle : s.busy = false) (x : Bool) :
    exec (.crcBit x) s = .next { s with crc := crcStep s.crc x } :=
  whenIdle_of_idle hidle _

/-- Settles O18: the words carry their operand and nothing else, and CRC_BYTE is eight steps. -/
theorem crcCommands : Obligations.CrcCommands := by
  refine ⟨by decide, by decide, by decide, fun b => ?_, fun v s hidle h => ?_, fun s x b hbusy => ⟨?_, ?_, ?_⟩,
    fun s x b hidle => ?_⟩
  · have hopnd : (Instr.crcByte b).operand.toNat = b.toNat := BitVec.toNat_setWidth_of_le (by decide)
    exact decode_ofNat_add rfl (by decide : Opcode.crcByte.code.toNat * 2 ^ 24 = 0x22000000) hopnd
  · refine commandWrite_of_reservedSet hidle ?_
    obtain ⟨hopc, hopnd⟩ | ⟨hopc, hopnd⟩ | ⟨hopc, hopnd⟩ := h
    · exact .inl ⟨by rw [hopc]; decide, hopnd⟩
    · exact .inr (.inr (.inl ⟨hopc, hopnd⟩))
    · exact .inr (.inl ⟨by rw [hopc]; decide, hopnd⟩)
  · exact exec_of_busy hbusy nofun nofun
  · exact exec_of_busy hbusy nofun nofun
  · exact exec_of_busy hbusy nofun nofun
  · intro bit high low
    have hbit : crcStep = bit := funext₂ crcStep_eq
    clear_value bit
    subst hbit
    exact ⟨exec_crcInit_of_idle hidle, exec_crcBit_of_idle hidle x, exec_crcByte_of_idle hidle b⟩

end Sys2Proof.Machine
end

section
/-! SUPPORT. The frames of the source: BUILD and CKSUM extend what a run has built, RUN starts it empty, and nothing else that
happens during a run writes it (R135, R155, R179, R234, R235). -/

namespace Sys2Proof.Machine

/-! What leaves the frames alone -/

/-- Without a run in progress nothing is asked of the frames. -/
theorem framesInv_of_idle {s : State} (hidle : s.busy = false) : s.FramesInv := by
  have hnot : ¬ s.busy = true := by simp [hidle]
  exact ⟨fun hb => absurd hb hnot, fun hb => absurd hb hnot, fun hb => absurd hb hnot, fun hb => absurd hb hnot⟩

theorem raiseError_framesInv {s : State} (h : s.FramesInv) (c : ErrorCause) : (raiseError c s).FramesInv :=
  { h with }

theorem drawWrite_framesInv {v : Word} {s t : State} (h : s.FramesInv) (ht : drawWrite v s = .next t) : t.FramesInv := by
  obtain ⟨c, rfl⟩ | ⟨-, -, rfl⟩ := drawWrite_next ht
  · exact raiseError_framesInv h c
  · exact { h with }

/-- A run starts with no frame built and the CRC at its initial value. -/
theorem startRun_framesInv (s : State) : (startRun s).FramesInv := by
  have hbuilt : (startRun s).built = 0 := Nat.zero_min _
  refine ⟨fun _ i hi => ?_, fun _ i hi => ?_, fun _ => (if_pos hbuilt).symm, fun _ hstored => ?_⟩
  · exact absurd hi (hbuilt ▸ Nat.not_lt_zero i)
  · exact absurd hi (hbuilt ▸ Nat.not_lt_zero i)
  · exact absurd hstored (Nat.succ_ne_zero _).symm

theorem exec_framesInv {i : Instr} {s t : State} (h : s.FramesInv) (ht : exec i s = .next t) : t.FramesInv := by
  obtain rfl | ⟨c, rfl⟩ | ⟨-, rfl⟩ | ⟨hidle, hcmd⟩ := exec_next ht
  · exact h
  · exact raiseError_framesInv h c
  · exact { h with }
  obtain ⟨-, rfl⟩ | ⟨-, -, -, rfl⟩ | ⟨-, -, rfl⟩ | ⟨-, -, rfl⟩ | ⟨-, -, rfl⟩ | ⟨-, -, rfl⟩ := hcmd
  · exact framesInv_of_idle hidle
  · exact framesInv_of_idle hidle
  · exact framesInv_of_idle hidle
  · exact framesInv_of_idle hidle
  · exact framesInv_of_idle hidle
  · exact startRun_framesInv s

theorem commandWrite_framesInv {v : Word} {s t : State} (h : s.FramesInv) (ht : commandWrite v s = .next t) : t.FramesInv := by
  obtain ⟨i, -, ht⟩ | ⟨-, c, -, rfl⟩ := commandWrite_next ht
  · exact exec_framesInv h ht
  · exact raiseError_framesInv h c

/-- Only BUILD and CKSUM write a frame, a CRC or the sum (R32). -/
theorem phaseStep_keeps_frames {s : State} (hbuild : s.phase ≠ .build) (hcksum : s.phase ≠ .cksum) :
    (phaseStep s).ftab = s.ftab ∧ (phaseStep s).nframes = s.nframes ∧ (phaseStep s).ctab = s.ctab ∧
      (phaseStep s).crc = s.crc ∧ (phaseStep s).sum = s.sum := by
  have hw := phaseStep_writers s
  refine ⟨?_, ?_, ?_, ?_, ?_⟩
  · by_contra hne
    simpa [hbuild, hcksum] using hw.ftab hne
  · by_contra hne
    simpa [hbuild, hcksum] using hw.nframes hne
  · by_contra hne
    simpa [hbuild] using hw.ctab hne
  · by_contra hne
    simpa [hbuild] using hw.crc hne
  · by_contra hne
    simpa [hcksum] using hw.sum hne

theorem phaseStep_framesInv_of_built {s : State} (h : s.FramesInv) (hbusy : s.busy = true) (hbuild : s.phase ≠ .build)
    (hcksum : s.phase ≠ .cksum) : (phaseStep s).FramesInv := by
  obtain ⟨hcfg, hsrc, -⟩ := phaseStep_keeps s
  obtain ⟨hn, -⟩ := phaseStep_ndata_done s
  obtain ⟨hftab, hnf, hctab, hcrc, hsum⟩ := phaseStep_keeps_frames hbuild hcksum
  have hbuilt : (phaseStep s).built = s.built := by rw [State.built, hnf, hn, State.built]
  constructor
  · intro _
    rw [hbuilt, hftab, hsrc]
    exact h.frames hbusy
  · intro _
    rw [hbuilt, hctab, hsrc]
    exact h.crcs hbusy
  · intro _
    rw [hbuilt, hcrc, hsrc]
    exact h.lastCrc hbusy
  · intro _ hstored
    rw [State.allStored, hnf, hn] at hstored
    rw [hftab, hn, hcfg, hsrc, hsum]
    exact h.control hbusy hstored

/-! BUILD (R234) -/

theorem built_eq_nframes {s : State} (h : s.nframes.toNat ≤ s.ndata.toNat) : s.built = s.nframes.toNat :=
  Nat.min_eq_left h

/-- What BUILD stores in the slot of its index is the source's frame there. -/
theorem sourceFrame_toNat (src : Bits) (i : Word) :
    sourceFrame src i.toNat = stuffFrame (dataRaw i (payload src i.toNat) (crc16 (payload src i.toNat))) := by
  rw [sourceFrame, sourceCrc, BitVec.ofNat_toNat, BitVec.setWidth_eq]

/-- A write of `f k` to slot `k` of a memory that holds `f` below `k` makes it hold `f` below `k + 1`. -/
theorem Memory.read_write_lt_succ {α : Type} {m : Memory α} {f : Nat → α} {k : Nat} (h : ∀ i < k, m.read i = some (f i)) :
    ∀ i < k + 1, (m.write k (f k)).read i = some (f i) := by
  intro i hi
  obtain hlt | rfl := Nat.lt_succ_iff_lt_or_eq.1 hi
  · rw [Memory.read_write_other m _ (Nat.ne_of_lt hlt)]
    exact h i hlt
  · exact Memory.read_write_same m i _

theorem stepBuild_framesInv {s : State} (h : s.FramesInv) (hbusy : s.busy = true) (hlt : s.nframes.toNat < s.ndata.toNat) :
    (stepBuild s).FramesInv := by
  have hframes := h.frames hbusy
  have hcrcs := h.crcs hbusy
  rw [built_eq_nframes (Nat.le_of_lt hlt)] at hframes hcrcs
  have hnext : (stepBuild s).nframes.toNat = s.nframes.toNat + 1 := by
    show (s.nframes + 1#32).toNat = _
    bv_omega
  have hbuilt : (stepBuild s).built = s.nframes.toNat + 1 := by
    rw [← hnext]
    exact built_eq_nframes (hnext ▸ hlt)
  constructor
  · intro _
    rw [hbuilt]
    show ∀ i < _, (s.ftab.write _ (stuffFrame _)).read i = some (sourceFrame s.bitbuf i)
    rw [← sourceFrame_toNat]
    exact Memory.read_write_lt_succ hframes
  · intro _
    rw [hbuilt]
    exact Memory.read_write_lt_succ hcrcs
  · intro _
    rw [hbuilt]
    rfl
  · intro _ hstored
    have : s.nframes.toNat + 1 = s.ndata.toNat + 1 := hnext.symm.trans hstored
    omega

/-! CKSUM (R235) -/

theorem crcAt_of_read {s : State} {i : Nat} {c : BitVec 16} (h : s.ctab.read i = some c) : s.crcAt i = c := by
  rw [State.crcAt, h, Option.getD_some]

/-- With every payload's CRC in CTAB, the checksum input is that of the source (R155). -/
theorem cksSum_cksInput {s : State} (hcrcs : ∀ i < s.ndata.toNat, s.ctab.read i = some (sourceCrc s.bitbuf i)) :
    cksSum (cksInput s) = sourceSum s.bitbuf s.ndata.toNat := by
  refine congrArg cksSum (List.flatMap_congr fun i hi => ?_)
  rw [crcAt_of_read (hcrcs i (List.mem_range.1 hi))]

theorem stepCksum_framesInv {s : State} (h : s.FramesInv) (hbusy : s.busy = true) (heq : s.nframes.toNat = s.ndata.toNat) :
    (stepCksum s).FramesInv := by
  have hframes := h.frames hbusy
  have hcrcs := h.crcs hbusy
  have hlast := h.lastCrc hbusy
  rw [built_eq_nframes (Nat.le_of_eq heq), heq] at hframes hcrcs hlast
  have hbuilt : (stepCksum s).built = s.ndata.toNat := by
    refine Nat.min_eq_right ?_
    show s.ndata.toNat ≤ (s.ndata.setWidth 32 + 1#32).toNat
    bv_omega
  have hsum := cksSum_cksInput hcrcs
  constructor
  · intro _ i hi
    rw [hbuilt] at hi
    exact (Memory.read_write_other s.ftab _ (Nat.ne_of_lt hi)).trans (hframes i hi)
  · intro _
    rw [hbuilt]
    exact hcrcs
  · intro _
    rw [hbuilt]
    exact hlast
  · intro _ _
    refine ⟨?_, hsum⟩
    show (s.ftab.write _ (stuffFrame (ctrlRaw _ (cksResult (cksSum (cksInput s)))))).read _ = _
    rw [hsum]
    exact Memory.read_write_same s.ftab _ _

/-! One step -/

theorem phaseStep_framesInv {s : State} (hc : s.controlInv) (h : s.FramesInv) (hbusy : s.busy = true) :
    (phaseStep s).FramesInv := by
  by_cases hbuild : s.phase = .build
  · rw [phaseStep, hbuild]
    exact stepBuild_framesInv h hbusy ((controlInv_build hbuild).1 hc).1
  by_cases hcksum : s.phase = .cksum
  · rw [phaseStep, hcksum]
    exact stepCksum_framesInv h hbusy ((controlInv_cksum hcksum).1 hc).1
  · exact phaseStep_framesInv_of_built h hbusy hbuild hcksum

theorem sequencerStep_framesInv {s : State} (hc : s.controlInv) (h : s.FramesInv) : (sequencerStep s).FramesInv := by
  cases he : s.enabled with
  | false => rw [sequencerStep_of_not_enabled he]; exact h
  | true =>
    rw [sequencerStep_of_enabled he]
    exact phaseStep_framesInv hc h (State.busy_eq_true.2 (State.enabled_iff.1 he).1)

theorem transition_framesInv {tr : Transition} {s t : State} (hc : s.controlInv) (h : s.FramesInv)
    (ht : transition tr s = .next t) : t.FramesInv := by
  obtain ⟨a, -, rfl⟩ | ⟨v, -, ht⟩ | ⟨v, -, ht⟩ | ⟨_, _, -, -, -, rfl⟩ | ⟨-, rfl⟩ | ⟨d, -, rfl⟩ := transition_next ht
  · exact { h with }
  · exact commandWrite_framesInv h ht
  · exact drawWrite_framesInv h ht
  · exact h
  · exact sequencerStep_framesInv hc h
  · exact framesInv_of_idle rfl

/-- Settles O50: the step is the sequencer's or the first transition scheduled, and the schedule is no part of the frames. -/
theorem stepKeepsFramesOfSource : Obligations.StepKeepsFramesOfSource := by
  intro s t hinv h ht
  obtain ⟨-, rfl⟩ | ⟨tr, rest, -, ht⟩ := step_next ht
  · exact sequencerStep_framesInv hinv.control h
  · have hrest : { s with sched := rest }.FramesInv := { h with }
    exact transition_framesInv (withSched_inv hinv rest).control hrest ht

end Sys2Proof.Machine
end

section
/-! SUPPORT. The checksum unit: the wrap step on numbers, the sum of a byte sequence in closed form, and the one's-complement
identity (R150 to R154). -/

namespace Sys2Proof.Machine

/-! One step (R150) -/

/-- R150's step on numbers: the wrapped sum of two bytes is at most 255, so nothing is lost in storing it. -/
theorem toNat_cksAdd (x v : Byte) :
    (cksAdd x v).toNat = if x.toNat + v.toNat > 255 then (x.toNat + v.toNat) % 256 + 1 else x.toNat + v.toNat := by
  have hx := x.isLt
  have hv := v.isLt
  rw [cksAdd, BitVec.toNat_ofNat]
  refine Nat.mod_eq_of_lt ?_
  split <;> omega

/-! The sum of a sequence, as the residue of its exact sum -/

/-- The residue of `n` modulo 255, taken in 1 to 255 unless `n` is 0. -/
def wrappedSum (n : Nat) : Nat := if n = 0 then 0 else (n - 1) % 255 + 1

/-- A byte's value is its own residue. -/
theorem wrappedSum_toNat (x : Byte) : wrappedSum x.toNat = x.toNat := by
  have hx := x.isLt
  rw [wrappedSum]
  split <;> omega

/-- What has been wrapped already may be wrapped again with the rest. -/
theorem wrappedSum_add (m n : Nat) : wrappedSum (wrappedSum m + n) = wrappedSum (m + n) := by
  by_cases hm : m = 0
  · subst hm
    rfl
  · have hresidue : wrappedSum m = (m - 1) % 255 + 1 := if_neg hm
    rw [hresidue, wrappedSum, wrappedSum, if_neg (by omega), if_neg (by omega)]
    omega

/-- Folding the carry back in takes 255 off the exact sum. -/
theorem toNat_cksAdd_eq_wrappedSum (x v : Byte) : (cksAdd x v).toNat = wrappedSum (x.toNat + v.toNat) := by
  have hx := x.isLt
  have hv := v.isLt
  rw [toNat_cksAdd, wrappedSum]
  split <;> split <;> omega

theorem toNat_foldl_cksAdd (x : Byte) (bs : List Byte) :
    (bs.foldl cksAdd x).toNat = wrappedSum (x.toNat + (bs.map BitVec.toNat).sum) := by
  induction bs generalizing x with
  | nil => exact (wrappedSum_toNat x).symm
  | cons b bs ih =>
    rw [List.foldl_cons, ih, toNat_cksAdd_eq_wrappedSum, wrappedSum_add, Nat.add_assoc, List.map_cons, List.sum_cons]

theorem toNat_cksSum (bs : List Byte) : (cksSum bs).toNat = wrappedSum (bs.map BitVec.toNat).sum := by
  rw [cksSum, toNat_foldl_cksAdd, BitVec.toNat_zero, Nat.zero_add]

/-- A sum and its checksum add up to all ones (R154). -/
theorem toNat_add_toNat_cksResult (x : Byte) : x.toNat + (cksResult x).toNat = 0xFF := by
  have hx := x.isLt
  rw [cksResult, BitVec.toNat_not]
  omega

/-- Settles O26: the checksum is the complement of the sum, and each wrap keeps the residue modulo 255. -/
theorem checksumLaws : Obligations.ChecksumLaws :=
  ⟨fun bs => toNat_add_toNat_cksResult (cksSum bs), toNat_cksSum⟩

/-! CKS_INIT and CKS_ADD (R151, R152) -/

theorem exec_cksInit_of_idle {s : State} (hidle : s.busy = false) : exec .cksInit s = .next { s with sum := 0#8 } :=
  whenIdle_of_idle hidle _

/-- Settles O19: both words carry their operand and nothing else, and CKS_ADD is R150's step on numbers. -/
theorem checksumCommands : Obligations.ChecksumCommands := by
  refine ⟨by decide, fun b => ?_, fun v s hidle h => ?_, fun s b hbusy => ⟨?_, ?_⟩, fun s b hidle => ⟨?_, ?_⟩⟩
  · have hopnd : (Instr.cksAdd b).operand.toNat = b.toNat := BitVec.toNat_setWidth_of_le (by decide)
    exact decode_ofNat_add rfl (by decide : Opcode.cksAdd.code.toNat * 2 ^ 24 = 0x31000000) hopnd
  · refine commandWrite_of_reservedSet hidle ?_
    obtain ⟨hopc, hopnd⟩ | ⟨hopc, hopnd⟩ := h
    · exact .inl ⟨by rw [hopc]; decide, hopnd⟩
    · exact .inr (.inl ⟨by rw [hopc]; decide, hopnd⟩)
  · exact exec_of_busy hbusy nofun nofun
  · exact exec_of_busy hbusy nofun nofun
  · exact exec_cksInit_of_idle hidle
  · exact ⟨cksAdd s.sum b, exec_cksAdd_of_idle hidle b, toNat_cksAdd s.sum b⟩

end Sys2Proof.Machine
end

section
/-! SUPPORT. The stuffer and the destuffer on bodies: the spec's loops, the destuffer as the stuffer's inverse, and runs of 1s
(R174, R176, R178). -/

namespace Sys2Proof.Machine

/-! One bit of each scan -/

/-- The bits that follow `cnt` 1s in the stuffing, with the stuffed 0 still owed after the fifth (R174). -/
def stuffOwed (cnt : Nat) (m : Bits) : Bits := if cnt = 5 then false :: stuffFrom 0 m else stuffFrom cnt m

theorem stuffOwed_five (m : Bits) : stuffOwed 5 m = false :: stuffFrom 0 m := rfl

theorem stuffOwed_of_ne {cnt : Nat} (h : cnt ≠ 5) (m : Bits) : stuffOwed cnt m = stuffFrom cnt m := if_neg h

/-- The counter after a bit that the scan passes on (R174, R176). -/
def countOnes (cnt : Nat) (b : Bool) : Nat := if b then cnt + 1 else 0

theorem stuffFrom_cons (cnt : Nat) (b : Bool) (m : Bits) : stuffFrom cnt (b :: m) = b :: stuffOwed (countOnes cnt b) m := by
  cases b with
  | false => rfl
  | true =>
    simp only [stuffFrom, stuffOwed, countOnes, stuffRun, if_true]
    split <;> rfl

theorem stuffFrom_eq_nil_iff {cnt : Nat} {m : Bits} : stuffFrom cnt m = [] ↔ m = [] := by
  cases m with
  | nil => simp [stuffFrom]
  | cons b m => simp [stuffFrom_cons]

theorem unstuffFrom_five_nil : unstuffFrom 5 [] = .error .trunc := rfl

theorem unstuffFrom_five_cons (b : Bool) (y : Bits) :
    unstuffFrom 5 (b :: y) = if b then .error .viol else unstuffFrom 0 y := rfl

theorem unstuffFrom_nil_of_ne {cnt : Nat} (h : cnt ≠ 5) : unstuffFrom cnt [] = .ok [] := if_neg h

theorem unstuffFrom_cons_of_ne {cnt : Nat} (h : cnt ≠ 5) (b : Bool) (y : Bits) :
    unstuffFrom cnt (b :: y) = (unstuffFrom (countOnes cnt b) y).map (b :: ·) := by
  rw [unstuffFrom, if_neg h, countOnes]
  cases unstuffFrom (if b then cnt + 1 else 0) y <;> rfl

/-! The spec's loops (R174, R176) -/

theorem foldl_stuffRound (m out : Bits) (cnt : Nat) : (m.foldl stuffRound (out, cnt)).1 = out ++ stuffFrom cnt m := by
  induction m generalizing out cnt with
  | nil => simp [stuffFrom]
  | cons b m ih =>
    rw [List.foldl_cons, stuffFrom_cons]
    cases b with
    | false => exact (ih _ _).trans (by simp [countOnes, stuffOwed])
    | true =>
      by_cases hcnt : cnt + 1 = 5
      · have hround : stuffRound (out, cnt) true = (out ++ [true] ++ [false], 0) := if_pos hcnt
        rw [hround, ih]
        simp [countOnes, hcnt, stuffOwed_five]
      · have hround : stuffRound (out, cnt) true = (out ++ [true], cnt + 1) := if_neg hcnt
        rw [hround, ih]
        simp [countOnes, stuffOwed_of_ne hcnt]

/-- What the check after R176's loop makes of the loop's result. -/
def unstuffVerdict : Except Destuff (Bits × Nat) → Except Destuff Bits
  | .error e => .error e
  | .ok (out, cnt) => if cnt = 5 then .error .trunc else .ok out

theorem unstuffLoop_eq (y : Bits) : unstuffLoop y = unstuffVerdict (y.foldl unstuffRound (.ok ([], 0))) := rfl

theorem foldl_unstuffRound_error (e : Destuff) (y : Bits) : y.foldl unstuffRound (.error e) = .error e := by
  induction y with
  | nil => rfl
  | cons b y ih => exact ih

theorem unstuffVerdict_foldl (y out : Bits) (cnt : Nat) :
    unstuffVerdict (y.foldl unstuffRound (.ok (out, cnt))) = (unstuffFrom cnt y).map (out ++ ·) := by
  induction y generalizing out cnt with
  | nil =>
    by_cases hcnt : cnt = 5
    · subst hcnt
      rfl
    · rw [unstuffFrom_nil_of_ne hcnt]
      exact (if_neg hcnt).trans (congrArg Except.ok out.append_nil.symm)
  | cons b y ih =>
    rw [List.foldl_cons]
    by_cases hcnt : cnt = 5
    · subst hcnt
      cases b with
      | false => exact ih out 0
      | true => exact congrArg unstuffVerdict (foldl_unstuffRound_error .viol y)
    · have hround : unstuffRound (.ok (out, cnt)) b = .ok (out ++ [b], countOnes cnt b) := if_neg hcnt
      rw [hround, ih, unstuffFrom_cons_of_ne hcnt]
      cases unstuffFrom (countOnes cnt b) y <;> simp [Except.map]

/-- Settles O27: each loop, begun with any output and counter, appends what the recursion gives. -/
theorem stufferAndDestufferAreTheLoops : Obligations.StufferAndDestufferAreTheLoops := by
  refine ⟨fun m => (foldl_stuffRound m [] 0).symm, fun y => ?_⟩
  rw [unstuffLoop_eq, unstuffVerdict_foldl, unstuffBody]
  cases unstuffFrom 0 y <;> rfl

/-! The destuffer inverts the stuffer (R178, laws 1 and 4) -/

theorem except_map_cons_eq_ok_iff {r : Except Destuff Bits} {b : Bool} {u : Bits} :
    r.map (b :: ·) = .ok u ↔ ∃ v, r = .ok v ∧ b :: v = u := by
  cases r <;> simp [Except.map]

/-- With `cnt` 1s seen, the sequences that destuff to a body are its stuffing from there on, and no other. -/
theorem unstuffFrom_eq_ok_iff {cnt : Nat} {y u : Bits} : unstuffFrom cnt y = .ok u ↔ stuffOwed cnt u = y := by
  induction y generalizing cnt u with
  | nil =>
    by_cases hcnt : cnt = 5
    · subst hcnt
      simp [unstuffFrom_five_nil, stuffOwed_five]
    · rw [unstuffFrom_nil_of_ne hcnt, stuffOwed_of_ne hcnt, stuffFrom_eq_nil_iff, Except.ok.injEq, eq_comm]
  | cons b y ih =>
    by_cases hcnt : cnt = 5
    · subst hcnt
      cases b with
      | false => simpa [unstuffFrom_five_cons, stuffOwed_five, stuffOwed] using ih (cnt := 0) (u := u)
      | true => simp [unstuffFrom_five_cons, stuffOwed_five]
    · rw [unstuffFrom_cons_of_ne hcnt, stuffOwed_of_ne hcnt, except_map_cons_eq_ok_iff]
      cases u with
      | nil => simp [stuffFrom]
      | cons c u =>
        simp only [stuffFrom_cons, List.cons.injEq, ih]
        constructor
        · rintro ⟨v, hv, rfl, rfl⟩
          exact ⟨rfl, hv⟩
        · rintro ⟨rfl, hu⟩
          exact ⟨u, hu, rfl, rfl⟩

theorem unstuffBody_eq_ok_iff {y u : Bits} : unstuffBody y = .ok u ↔ stuffBody u = y := unstuffFrom_eq_ok_iff

theorem unstuffBody_stuffBody (m : Bits) : unstuffBody (stuffBody m) = .ok m := unstuffBody_eq_ok_iff.2 rfl

/-- Settles O31: to destuff to a body is to be its stuffing. -/
theorem unstuffAcceptsOnlyStuffedBodies : Obligations.UnstuffAcceptsOnlyStuffedBodies :=
  fun _ => ⟨fun _ => unstuffBody_eq_ok_iff.1, exists_congr fun _ => unstuffBody_eq_ok_iff.trans eq_comm⟩

/-! Runs of 1s (R178, law 2) -/

theorem not_replicate_prefix_of_short_run {n k : Nat} (h : k < n) (y : Bits) :
    ¬ List.replicate n true <+: List.replicate k true ++ false :: y := fun hprefix => by
  have hbit := hprefix.getElem (i := k) (by simpa using h)
  simp at hbit

/-- A run of `n` 1s does not reach over a 0 that fewer than `n` 1s precede. -/
theorem replicate_infix_of_short_run {n k : Nat} (h : k < n) {y : Bits}
    (hrun : List.replicate n true <:+: List.replicate k true ++ false :: y) : List.replicate n true <:+: y := by
  induction k with
  | zero => exact (List.infix_cons_iff.1 hrun).resolve_left (not_replicate_prefix_of_short_run h y)
  | succ k ih =>
    exact ih (Nat.lt_of_succ_lt h) ((List.infix_cons_iff.1 hrun).resolve_left (not_replicate_prefix_of_short_run h y))

/-- The stuffing makes no run of six 1s, not even with the `cnt` 1s it has seen before. -/
theorem no_six_ones_stuffFrom (m : Bits) {cnt : Nat} (hcnt : cnt < 5) :
    ¬ List.replicate 6 true <:+: List.replicate cnt true ++ stuffFrom cnt m := by
  induction m generalizing cnt with
  | nil =>
    intro hrun
    have := hrun.length_le
    simp only [stuffFrom, List.append_nil, List.length_replicate] at this
    omega
  | cons b m ih =>
    have ih0 : ¬ List.replicate 6 true <:+: stuffFrom 0 m := ih (cnt := 0) (by decide)
    rw [stuffFrom_cons]
    cases b with
    | false => exact fun hrun => ih0 (replicate_infix_of_short_run (Nat.lt_succ_of_lt hcnt) hrun)
    | true =>
      have hshift : ∀ z, List.replicate cnt true ++ true :: z = List.replicate (cnt + 1) true ++ z := by
        simp [List.replicate_succ']
      rw [hshift]
      by_cases hfive : cnt + 1 = 5
      · obtain rfl : cnt = 4 := by omega
        exact fun hrun => ih0 (replicate_infix_of_short_run (by decide : 5 < 6) hrun)
      · rw [countOnes, if_pos rfl, stuffOwed_of_ne hfive]
        exact ih (by omega)

/-- Settles O29: nothing has been seen before the body. -/
theorem stuffedBodyHasNoSixOnes : Obligations.StuffedBodyHasNoSixOnes :=
  fun m => no_six_ones_stuffFrom m (by decide : 0 < 5)

end Sys2Proof.Machine
end

section
/-! SUPPORT. The frames: a frame as its opening 8 bits, its body and its closing 8 bits, the flag in a stuffed frame, and the
lengths and the layout of the two raw frames (R171 to R178). -/

namespace Sys2Proof.Machine

/-! A frame in its three parts (R175, R177) -/

theorem exists_frame_parts {f : Bits} (h : 16 ≤ f.length) :
    ∃ head body tail, f = head ++ body ++ tail ∧ head.length = 8 ∧ tail.length = 8 := by
  refine ⟨f.take 8, (f.drop 8).take (f.length - 16), (f.drop 8).drop (f.length - 16), ?_, ?_, ?_⟩
  · rw [List.append_assoc, List.take_append_drop, List.take_append_drop]
  · rw [List.length_take]
    omega
  · simp only [List.length_drop]
    omega

section
variable {head body tail : Bits} (hhead : head.length = 8) (htail : tail.length = 8)
include hhead

theorem frameHead_append : frameHead (head ++ body ++ tail) = head := by
  rw [frameHead, List.append_assoc, List.take_left' hhead]

include htail

theorem frameBody_append : frameBody (head ++ body ++ tail) = body := by
  rw [frameBody, List.append_assoc, List.drop_left' hhead]
  exact List.take_left' (by simp only [List.length_append]; omega)

theorem frameTail_append : frameTail (head ++ body ++ tail) = tail :=
  List.drop_left' (by simp only [List.length_append]; omega)

theorem stuffFrame_append : stuffFrame (head ++ body ++ tail) = head ++ stuffBody body ++ tail := by
  rw [stuffFrame, frameHead_append hhead, frameBody_append hhead htail, frameTail_append hhead htail]

theorem unstuffFrame_append :
    unstuffFrame (head ++ body ++ tail) = (unstuffBody body).map fun m => head ++ m ++ tail := by
  unfold unstuffFrame
  rw [frameHead_append hhead, frameBody_append hhead htail, frameTail_append hhead htail]
  cases unstuffBody body <;> rfl

end

theorem unstuffFrame_stuffFrame {f : Bits} (h : 16 ≤ f.length) : unstuffFrame (stuffFrame f) = .ok f := by
  obtain ⟨head, body, tail, rfl, hhead, htail⟩ := exists_frame_parts h
  rw [stuffFrame_append hhead htail, unstuffFrame_append hhead htail, unstuffBody_stuffBody]
  rfl

/-- Settles O28: a frame keeps its ends, and its body destuffs to what was stuffed. -/
theorem unstuffInvertsStuff : Obligations.UnstuffInvertsStuff :=
  ⟨unstuffBody_stuffBody, fun _ => unstuffFrame_stuffFrame⟩

/-! The flag in a stuffed frame (R178, law 3) -/

/-- The flag, 0x7E, bit by bit (R173). -/
def flagBits : Bits := [false, true, true, true, true, true, true, false]

@[simp] theorem length_flagBits : flagBits.length = 8 := rfl

theorem getElem?_between_flags {x : Bits} {j : Nat} (h : j < x.length) :
    (flagBits ++ x ++ flagBits)[8 + j]? = x[j]? := by
  rw [List.append_assoc, List.getElem?_append_right (Nat.le_add_right 8 j), length_flagBits, Nat.add_sub_cancel_left,
    List.getElem?_append_left h]

theorem replicate_infix_of_getElem? {x : Bits} {n j : Nat}
    (hones : ∀ i < n, x[j + i]? = some true) : List.replicate n true <:+: x := by
  have hrun : (x.drop j).take n = List.replicate n true := by
    refine List.ext_getElem? fun i => ?_
    by_cases hi : i < n
    · rw [List.getElem?_take_of_lt hi, List.getElem?_drop, hones i hi, List.getElem?_replicate_of_lt hi]
    · rw [List.getElem?_eq_none (by simp; omega), List.getElem?_eq_none (by simpa using hi)]
  exact hrun ▸ (List.take_prefix ..).isInfix.trans (List.drop_suffix ..).isInfix

/-- The places in a delimited sequence where a flag can stand, when no six 1s in a row stand between the delimiters. -/
theorem flag_position {x : Bits} (hx : ¬ List.replicate 6 true <:+: x) {k : Nat}
    (hk : ((flagBits ++ x ++ flagBits).drop k).take 8 = flagBits) : k = 0 ∨ k = 8 + x.length := by
  have hbit : ∀ i < 8, (flagBits ++ x ++ flagBits)[k + i]? = flagBits[i]? := fun i hi => by
    rw [← List.getElem?_drop, ← List.getElem?_take_of_lt hi, hk]
  have hones : ∀ i < 6, (flagBits ++ x ++ flagBits)[k + 1 + i]? = some true := fun i hi => by
    rw [Nat.add_assoc, hbit (1 + i) (by omega)]
    exact (by decide : ∀ i < 6, flagBits[1 + i]? = some true) i hi
  have hend : k + 7 < 8 + x.length + 8 := by
    have hlt := (List.getElem?_eq_some_iff.1 (hbit 7 (by decide))).1
    simpa only [List.length_append, length_flagBits] using hlt
  -- The six 1s cover neither the last bit of the opening flag nor the first of the closing one.
  have avoids : ∀ j, (flagBits ++ x ++ flagBits)[j]? = some false → j ≤ k ∨ k + 7 ≤ j := by
    intro j hj
    by_contra hcover
    obtain ⟨i, rfl, hi⟩ : ∃ i, j = k + 1 + i ∧ i < 6 := ⟨j - (k + 1), by omega, by omega⟩
    rw [hones i hi] at hj
    cases hj
  have hopen := avoids 7 rfl
  have hclose := avoids (8 + x.length) (by
    rw [List.getElem?_append_right (by simp), List.length_append, length_flagBits, Nat.sub_self]
    rfl)
  by_contra hpos
  refine hx (replicate_infix_of_getElem? (j := k - 7) fun i hi => ?_)
  rw [← getElem?_between_flags (by omega), ← hones i hi]
  congr 1
  omega

/-- Settles O30: between the two flags stands a stuffed body, which holds no six 1s. -/
theorem flagOnlyAtFrameEnds : Obligations.FlagOnlyAtFrameEnds := by
  intro m flag f k
  have hf : f = flagBits ++ stuffBody m ++ flagBits := stuffFrame_append rfl rfl
  have hlen : f.length - 8 = 8 + (stuffBody m).length := by simp [hf, Nat.add_comm]
  rw [hlen, hf]
  constructor
  · exact flag_position (stuffedBodyHasNoSixOnes m)
  · rintro (rfl | rfl)
    · rfl
    · rw [List.drop_left' (by rw [List.length_append, length_flagBits])]
      rfl

/-! The lengths (R178, laws 5 and 6) -/

theorem length_stuffBody (m : Bits) :
    m.length ≤ (stuffBody m).length ∧ (stuffBody m).length ≤ m.length + m.length / 5 := by
  have hlow := length_unstuffFrom_le (unstuffBody_stuffBody m)
  have hhigh := length_stuffFrom_le m 0
  rw [stuffBody] at *
  omega

/-- A frame grows by what its body does. -/
theorem length_stuffFrame {f : Bits} (h : 16 ≤ f.length) :
    f.length ≤ (stuffFrame f).length ∧ (stuffFrame f).length ≤ f.length + (f.length - 16) / 5 := by
  obtain ⟨head, body, tail, rfl, hhead, htail⟩ := exists_frame_parts h
  have hbody := length_stuffBody body
  rw [stuffFrame_append hhead htail]
  simp only [List.length_append] at *
  omega

/-- Settles O32: the raw frames are 164 and 48 bits long. -/
theorem stuffedLengths : Obligations.StuffedLengths := by
  refine ⟨length_stuffBody, fun i src k => ?_, fun code ck => ?_⟩
  · simpa using length_stuffFrame (f := dataRaw i (payload src k) (crc16 (payload src k))) (by simp)
  · simpa using length_stuffFrame (f := ctrlRaw code ck) (by simp)

/-! The layout (R171 to R173) -/

theorem bitsMSB_eq_map_range {k : Nat} (v : BitVec k) (n : Nat) :
    bitsMSB v n = (List.range n).map fun i => v.getLsbD (n - 1 - i) := by
  induction n with
  | zero => rfl
  | succ n ih =>
    rw [bitsMSB, ih, List.range_succ_eq_map, List.map_cons, List.map_map]
    simp [Function.comp_def, Nat.sub_sub, Nat.add_comm]

theorem getElem?_payload (src : Bits) (i : Nat) {k : Nat} (h : k < 100) :
    (payload src i)[k]? = some ((src[100 * i + k]?).getD false) := by
  simp only [payload, payloadBits, zeros]
  by_cases hsrc : 100 * i + k < src.length
  · rw [List.getElem?_append_left (by simp only [List.length_take, List.length_drop]; omega),
      List.getElem?_take_of_lt h, List.getElem?_drop, List.getElem?_eq_getElem hsrc]
    rfl
  · rw [List.getElem?_append_right (by simp only [List.length_take, List.length_drop]; omega),
      List.getElem?_replicate_of_lt (by simp only [List.length_take, List.length_drop]; omega),
      List.getElem?_eq_none (Nat.le_of_not_lt hsrc)]
    rfl

theorem dataRaw_fields (i : Word) (p : Bits) (crc : BitVec 16) (hp : p.length = 100) :
    let f := dataRaw i p crc
    f.take 8 = bitsMSB flagByte 8 ∧ (f.drop 8).take 8 = bitsMSB senderAddr 8 ∧
      (f.drop 16).take 8 = bitsMSB receiverAddr 8 ∧ (f.drop 24).take 16 = bitsMSB i 16 ∧ (f.drop 40).take 100 = p ∧
      (f.drop 140).take 16 = bitsMSB crc 16 ∧ f.drop 156 = bitsMSB flagByte 8 := by
  simp [dataRaw, seqBits, crcBits, List.drop_append, List.drop_of_length_le, hp]

theorem ctrlRaw_fields (code ck : Byte) :
    let f := ctrlRaw code ck
    f.take 8 = bitsMSB flagByte 8 ∧ (f.drop 8).take 8 = bitsMSB senderAddr 8 ∧
      (f.drop 16).take 8 = bitsMSB receiverAddr 8 ∧ (f.drop 24).take 8 = bitsMSB code 8 ∧
      (f.drop 32).take 8 = bitsMSB ck 8 ∧ f.drop 40 = bitsMSB flagByte 8 := by
  simp [ctrlRaw, List.drop_append, List.drop_of_length_le]

/-- Settles O33: each field is what the fields before it leave at its place. -/
theorem frameLayout : Obligations.FrameLayout := by
  refine ⟨fun src i => ⟨length_payload src i, fun k => getElem?_payload src i⟩, fun i p hp => ?_, fun code ck => ?_⟩
  · intro field f
    have hfield : ∀ {k : Nat} (v : BitVec k) (n : Nat), bitsMSB v n = field v.toNat n := bitsMSB_eq_map_range
    have hfields := dataRaw_fields i p (crc16 p) hp
    simp only [hfield] at hfields
    exact ⟨by simp [f, hp], hfields⟩
  · intro field f
    have hfield : ∀ {k : Nat} (v : BitVec k) (n : Nat), bitsMSB v n = field v.toNat n := bitsMSB_eq_map_range
    have hfields := ctrlRaw_fields code ck
    simp only [hfield] at hfields
    exact ⟨length_ctrlRaw code ck, hfields⟩

end Sys2Proof.Machine
end

section
/-! SUPPORT. The work buffer's commands: W_CLEAR, W_APPEND, STUFF, UNSTUFF and FRAME_LOAD (R180 to R184). -/

namespace Sys2Proof.Machine

/-! W_CLEAR and W_APPEND (R180, R181) -/

theorem exec_wClear_of_idle {s : State} (hidle : s.busy = false) : exec .wClear s = .next { s with w := [] } :=
  whenIdle_of_idle hidle _

theorem exec_wAppend_of_full {s : State} (hidle : s.busy = false) {n : Nat} (v : BitVec 16)
    (hfull : s.w.length + n > 256) : exec (.wAppend n v) s = .next (raiseError .wlenErr s) :=
  (whenIdle_of_idle hidle _).trans (if_pos hfull)

/-- W_APPEND's operand: the count less 1, above VAL's sixteen bits (R82). -/
theorem toNat_operand_wAppend {n : Nat} (hn : n ≤ 16) (v : BitVec 16) :
    (Instr.wAppend n v).operand.toNat = (n - 1) * 2 ^ 16 + v.toNat := by
  have hv := v.isLt
  rw [Instr.operand, BitVec.toNat_setWidth_of_le (by decide), BitVec.toNat_append, ← Nat.shiftLeft_add_eq_or_of_lt hv,
    Nat.shiftLeft_eq, BitVec.toNat_ofNat, Nat.mod_eq_of_lt (by omega)]

/-- Settles O20: the words carry their operands and nothing else, and W_APPEND asks whether its bits fit. -/
theorem workBufferCommands : Obligations.WorkBufferCommands := by
  refine ⟨by decide, fun n v h1 h16 => ?_, fun v s hidle h => ?_, fun s n v hbusy => ⟨?_, ?_⟩,
    fun s n v hidle h1 h16 => ⟨?_, ?_, fun hfits => ?_⟩⟩
  · have hwf : (Instr.wAppend n v).wellFormed = true := by simp [Instr.wellFormed, h1, h16]
    rw [Nat.add_assoc]
    exact decode_ofNat_add hwf (by decide : Opcode.wAppend.code.toNat * 2 ^ 24 = 0x41000000) (toNat_operand_wAppend h16 v)
  · refine commandWrite_of_reservedSet hidle ?_
    obtain ⟨hopc, hopnd⟩ | ⟨hopc, hopnd⟩ := h
    · exact .inl ⟨by rw [hopc]; decide, hopnd⟩
    · exact .inr (.inr (.inr (.inl ⟨hopc, hopnd⟩)))
  · exact exec_of_busy hbusy nofun nofun
  · exact exec_of_busy hbusy nofun nofun
  · exact exec_wClear_of_idle hidle
  · exact exec_wAppend_of_full hidle v
  · rw [← bitsMSB_eq_map_range]
    exact exec_wAppend_of_fits hidle v hfits

/-! STUFF and UNSTUFF (R182, R183) -/

section
variable {s : State} (hidle : s.busy = false)
include hidle

theorem exec_stuff_of_short (hshort : s.w.length < 16) : exec .stuff s = .next (raiseError .badArg s) :=
  (whenIdle_of_idle hidle _).trans (if_pos hshort)

theorem exec_unstuff_of_short (hshort : s.w.length < 16) : exec .unstuff s = .next (raiseError .badArg s) :=
  (whenIdle_of_idle hidle _).trans (if_pos hshort)

variable (hlen : 16 ≤ s.w.length)
include hlen

theorem exec_stuff_of_full (hfull : (stuffFrame s.w).length > 256) : exec .stuff s = .next (raiseError .wlenErr s) :=
  (whenIdle_of_idle hidle _).trans ((if_neg (Nat.not_lt.2 hlen)).trans (if_pos hfull))

theorem exec_stuff_of_fits (hfits : (stuffFrame s.w).length ≤ 256) :
    exec .stuff s = .next { s with w := stuffFrame s.w } :=
  (whenIdle_of_idle hidle _).trans ((if_neg (Nat.not_lt.2 hlen)).trans (if_neg (Nat.not_lt.2 hfits)))

theorem exec_unstuff_of_ok {r : Bits} (hr : unstuffFrame s.w = .ok r) : exec .unstuff s = .next { s with w := r } := by
  refine (whenIdle_of_idle hidle _).trans ((if_neg (Nat.not_lt.2 hlen)).trans ?_)
  rw [hr]

theorem exec_unstuff_of_error {e : Destuff} (he : unstuffFrame s.w = .error e) :
    exec .unstuff s = .next (raiseError e.cause s) := by
  refine (whenIdle_of_idle hidle _).trans ((if_neg (Nat.not_lt.2 hlen)).trans ?_)
  rw [he]
  rfl

end

/-- Settles O21: the stuffed frame is 16 bits longer than its stuffed body. -/
theorem stuffCommand : Obligations.StuffCommand := by
  refine ⟨by decide, fun v s hidle hopc hopnd => ?_, fun s hbusy => exec_of_busy hbusy nofun nofun,
    fun s hidle => exec_stuff_of_short hidle, fun s head body tail hidle hw hhead htail => ?_⟩
  · exact commandWrite_of_reservedSet hidle (.inl ⟨by rw [hopc]; decide, hopnd⟩)
  · have hlen : 16 ≤ s.w.length := by
      simp only [hw, List.length_append]
      omega
    have hframe : stuffFrame s.w = head ++ stuffBody body ++ tail := hw ▸ stuffFrame_append hhead htail
    have hsize : (stuffFrame s.w).length = 16 + (stuffBody body).length := by
      simp only [hframe, List.length_append]
      omega
    rw [← hframe, ← hsize]
    exact ⟨exec_stuff_of_full hidle hlen, exec_stuff_of_fits hidle hlen⟩

/-- Settles O22: the frame destuffs as its body does, with the same verdict. -/
theorem unstuffCommand : Obligations.UnstuffCommand := by
  refine ⟨by decide, fun v s hidle hopc hopnd => ?_, fun s hbusy => exec_of_busy hbusy nofun nofun,
    fun s hidle => exec_unstuff_of_short hidle, fun s head body tail hidle hw hhead htail => ?_⟩
  · exact commandWrite_of_reservedSet hidle (.inl ⟨by rw [hopc]; decide, hopnd⟩)
  · have hlen : 16 ≤ s.w.length := by
      simp only [hw, List.length_append]
      omega
    have hframe : unstuffFrame s.w = (unstuffBody body).map fun m => head ++ m ++ tail :=
      hw ▸ unstuffFrame_append hhead htail
    refine ⟨fun m hm => ?_, fun hviol => ?_, fun htrunc => ?_⟩
    · exact exec_unstuff_of_ok hidle hlen (by rw [hframe, hm]; rfl)
    · exact exec_unstuff_of_error hidle hlen (e := .viol) (by rw [hframe, hviol]; rfl)
    · exact exec_unstuff_of_error hidle hlen (e := .trunc) (by rw [hframe, htrunc]; rfl)

/-- Settles O34: the frame that STUFF leaves destuffs to the one that it found. -/
theorem unstuffCommandUndoesStuffCommand : Obligations.UnstuffCommandUndoesStuffCommand := by
  intro s hidle hlen hfits
  have hlong : 16 ≤ (stuffFrame s.w).length := hlen.trans (length_stuffFrame hlen).1
  exact ⟨_, exec_stuff_of_fits hidle hlen hfits,
    exec_unstuff_of_ok (s := { s with w := stuffFrame s.w }) hidle hlong (unstuffFrame_stuffFrame hlen)⟩

/-! FRAME_LOAD (R184) -/

theorem exec_frameLoad_of_none {s : State} (hidle : s.busy = false) {k : BitVec 16} (h : s.nframes.toNat ≤ k.toNat) :
    exec (.frameLoad k) s = .next (raiseError .badArg s) :=
  (whenIdle_of_idle hidle _).trans (if_pos h)

theorem exec_frameLoad_of_stored {s : State} (hidle : s.busy = false) {k : BitVec 16} (h : k.toNat < s.nframes.toNat) :
    exec (.frameLoad k) s = .next { s with w := s.frameAt k.toNat } :=
  (whenIdle_of_idle hidle _).trans (if_neg (Nat.not_le.2 h))

theorem frameAt_of_read {s : State} {k : Nat} {f : Bits} (h : s.ftab.read k = some f) : s.frameAt k = f := by
  rw [State.frameAt, h, Option.getD_some]

/-- Settles O23: the word carries its index and nothing else, and a slot that has been written holds its frame. -/
theorem frameLoadCommand : Obligations.FrameLoadCommand := by
  refine ⟨fun k => ?_, fun v s hidle hopc hopnd => ?_, fun s k hbusy => exec_of_busy hbusy nofun nofun,
    fun s k hidle => ⟨exec_frameLoad_of_none hidle, fun hlt => ?_⟩⟩
  · have hopnd : (Instr.frameLoad k).operand.toNat = k.toNat := BitVec.toNat_setWidth_of_le (by decide)
    exact decode_ofNat_add rfl (by decide : Opcode.frameLoad.code.toNat * 2 ^ 24 = 0x44000000) hopnd
  · exact commandWrite_of_reservedSet hidle (.inr (.inr (.inr (.inr ⟨hopc, hopnd⟩))))
  · have hload := exec_frameLoad_of_stored hidle hlt
    exact ⟨⟨_, hload⟩, fun f hf => frameAt_of_read hf ▸ hload⟩

end Sys2Proof.Machine
end

section
/-! SUPPORT. The channel: what a DRAW write does, what empties the draw slot, and the four decisions (R210 to R215). -/

namespace Sys2Proof.Machine

/-! CORR's decision (R215, R238) -/

/-- Whatever is decided, CORR goes on to RECV and writes nothing but the slot, the events and the two corruption counters. -/
theorem exists_stepCorr_eq (s : State) : ∃ evq corrupt csCorrupt,
    stepCorr s =
      { s with
        phase := .recv
        drawFull := false
        evq := evq
        stats := { s.stats with corrupt := corrupt, csCorrupt := csCorrupt } } := by
  unfold stepCorr
  dsimp only
  split <;> split
  · exact ⟨_, _, _, rfl⟩
  · exact ⟨_, _, _, rfl⟩
  · exact ⟨_, _, _, rfl⟩
  · exact ⟨_, _, _, rfl⟩

theorem sequencerStep_of_corr {s : State} (hp : s.phase = .corr) (henabled : s.enabled = true) :
    sequencerStep s = stepCorr s := by
  rw [sequencerStep_of_enabled henabled, phaseStep, hp]

/-- Settles O46: enabling does not look at the draw's value, so both steps are CORR's, of the form `exists_stepCorr_eq` gives. -/
theorem corruptionNeverAffectsDelivery : Obligations.CorruptionNeverAffectsDelivery := by
  intro s d hp henabled
  rw [sequencerStep_of_corr hp henabled, sequencerStep_of_corr (s := { s with drawVal := d }) hp henabled]
  obtain ⟨evq, corrupt, csCorrupt, ht⟩ := exists_stepCorr_eq s
  obtain ⟨evq', corrupt', csCorrupt', hu⟩ := exists_stepCorr_eq { s with drawVal := d }
  rw [ht, hu]
  exact ⟨rfl, rfl⟩

/-! The draw slot (R211) -/

theorem toNat_drawField (v : Word) : (drawField v).toNat = v.toNat % 256 := by
  rw [drawField, BitVec.extractLsb'_toNat, Nat.shiftRight_zero]

theorem drawWrite_of_range {v : Word} (h : 100 ≤ v.toNat % 256) (s : State) :
    drawWrite v s = .next (raiseError .drawRange s) :=
  if_pos (BitVec.le_def.2 (toNat_drawField v ▸ h))

theorem drawField_not_ge {v : Word} (h : v.toNat % 256 < 100) : ¬ drawField v ≥ drawMod :=
  BitVec.not_le.2 (BitVec.lt_def.2 (toNat_drawField v ▸ h))

theorem drawWrite_of_full {v : Word} {s : State} (h : v.toNat % 256 < 100) (hfull : s.drawFull = true) :
    drawWrite v s = .next (raiseError .drawOvf s) :=
  (if_neg (drawField_not_ge h)).trans (if_pos hfull)

theorem drawWrite_of_empty {v : Word} {s : State} (h : v.toNat % 256 < 100) (hempty : s.drawFull = false) :
    drawWrite v s = .next { s with drawVal := BitVec.ofNat 7 (v.toNat % 256), drawFull := true } := by
  rw [drawWrite, if_neg (drawField_not_ge h), hempty, if_neg Bool.false_ne_true, ← BitVec.ofNat_toNat,
    toNat_drawField]

theorem drawWrite_keeps_full {v : Word} {s t : State} (h : drawWrite v s = .next t) (hfull : s.drawFull = true) :
    t.drawFull = true := by
  obtain ⟨c, rfl⟩ | ⟨-, -, rfl⟩ := drawWrite_next h
  · exact hfull
  · rfl

/-- The only command that empties the slot is an accepted RUN. -/
theorem exec_keeps_drawFull_or_runs {i : Instr} {s t : State} (h : exec i s = .next t) :
    t.drawFull = s.drawFull ∨ (i = .run ∧ s.busy = false ∧ s.err = false) := by
  obtain rfl | ⟨c, rfl⟩ | ⟨-, rfl⟩ | ⟨hidle, hcmd⟩ := exec_next h
  · exact .inl rfl
  · exact .inl rfl
  · exact .inl rfl
  · obtain ⟨-, rfl⟩ | ⟨b, -, -, rfl⟩ | ⟨c, -, rfl⟩ | ⟨v, -, rfl⟩ | ⟨w, -, rfl⟩ | ⟨hrun, herr, -⟩ := hcmd
    · exact .inl rfl
    · exact .inl rfl
    · exact .inl rfl
    · exact .inl rfl
    · exact .inl rfl
    · exact .inr ⟨hrun, hidle, herr⟩

/-- Of the sequencer's steps only the draw-consuming ones empty the slot (R213). -/
theorem phaseStep_keeps_drawFull_or_draws (s : State) :
    (phaseStep s).drawFull = s.drawFull ∨ s.phase = .loss ∨ s.phase = .corr ∨ s.phase = .ack := by
  by_cases hkept : (phaseStep s).drawFull = s.drawFull
  · exact .inl hkept
  · exact .inr (by simpa using (phaseStep_writers s).drawSlot (.inl hkept))

/-- Settles O35: the three outcomes of a DRAW write by its range and the slot, and the step's cause where the slot is emptied. -/
theorem drawWriteRule : Obligations.DrawWriteRule := by
  refine ⟨fun v s => ⟨fun h => drawWrite_of_range h s, drawWrite_of_full, drawWrite_of_empty⟩, fun s t h hfull hempty => ?_⟩
  have hchanged : t.drawFull ≠ s.drawFull := by rw [hfull, hempty]; exact Bool.false_ne_true
  obtain ⟨a, -, rfl⟩ | ⟨i, hc, ht⟩ | ⟨-, c, rfl⟩ | ⟨v, -, ht⟩ | ⟨-, rfl⟩ | ⟨-, rfl⟩ | ⟨hc, rfl⟩ | ⟨d, hc, -⟩ :=
    step_by_cause h
  · exact absurd rfl hchanged
  · obtain ⟨rfl, haccepted⟩ := (exec_keeps_drawFull_or_runs ht).resolve_left hchanged
    exact .inl ⟨hc, haccepted⟩
  · exact absurd rfl hchanged
  · exact absurd ((drawWrite_keeps_full ht hfull).trans hfull.symm) hchanged
  · exact absurd rfl hchanged
  · exact absurd rfl hchanged
  · rw [hc]
    obtain hp | hp | hp := (phaseStep_keeps_drawFull_or_draws _).resolve_left hchanged
    · exact .inr (.inl (congrArg _ hp))
    · exact .inr (.inr (.inl (congrArg _ hp)))
    · exact .inr (.inr (.inr (.inl (congrArg _ hp))))
  · exact .inr (.inr (.inr (.inr hc)))

/-! The decisions (R210) -/

theorem dataLost_iff {r : BitVec 7} : dataLost r = true ↔ r.toNat < 10 := decide_eq_true_iff

theorem dataCorrupt_iff {r : BitVec 7} : dataCorrupt r = true ↔ r.toNat < 20 := decide_eq_true_iff

theorem ctrlCorrupt_iff {r : BitVec 7} : ctrlCorrupt r = true ↔ r.toNat < 5 := decide_eq_true_iff

theorem ackLost_iff {r : BitVec 7} : ackLost r = true ↔ r.toNat < 15 := decide_eq_true_iff

/-- A decision that is true exactly below `k` percent is true for `k` of the hundred draws. -/
theorem length_filter_draws {p : BitVec 7 → Bool} {k : Nat} (hk : k ≤ 100) (hp : ∀ {r}, p r = true ↔ r.toNat < k) :
    ((List.range 100).filter fun n => p (BitVec.ofNat 7 n)).length = k := by
  have hbelow : ∀ n ∈ List.range 100, p (BitVec.ofNat 7 n) = decide (n < k) := by
    intro n hn
    have hlt : n < 2 ^ 7 := (List.mem_range.1 hn).trans (by decide)
    rw [Bool.eq_iff_iff, hp, BitVec.toNat_ofNat, Nat.mod_eq_of_lt hlt, decide_eq_true_iff]
  rw [List.filter_congr hbelow, ← List.Ico.zero_bot, List.Ico.filter_lt_of_ge hk, List.Ico.zero_bot, List.length_range]

/-- Settles O36: the thresholds are the four percentages, and `length_filter_draws` counts the draws below each. -/
theorem decisionsHaveStatedProbability : Obligations.DecisionsHaveStatedProbability :=
  ⟨fun _ => ⟨dataLost_iff, dataCorrupt_iff, ctrlCorrupt_iff, ackLost_iff⟩,
    length_filter_draws (by decide) dataLost_iff, length_filter_draws (by decide) dataCorrupt_iff,
    length_filter_draws (by decide) ctrlCorrupt_iff, length_filter_draws (by decide) ackLost_iff⟩

end Sys2Proof.Machine
end

section
/-! SUPPORT. RUN and the step of each phase as one equation of states, with the event words as numbers (R90 to R95, R230,
R233 to R240, R250, R251, R260, R261). -/

namespace Sys2Proof.Machine

/-! Numbers in machine words -/

theorem add_one_eq_ofNat {w : Nat} (x : BitVec w) : x + 1#w = BitVec.ofNat w (x.toNat + 1) := by
  rw [BitVec.ofNat_add, BitVec.ofNat_toNat, BitVec.setWidth_eq]

/-- Two values in one word, the second in the low half (R91, R93). -/
theorem ofNat_shiftLeft_or_ofNat (a : Nat) {b : Nat} (hb : b < 2 ^ 16) :
    BitVec.ofNat 32 a <<< 16 ||| BitVec.ofNat 32 b = BitVec.ofNat 32 (a * 2 ^ 16 + b) := by
  have hlow : a % 2 ^ 32 * 2 ^ 16 % 2 ^ 32 = (a % 2 ^ 16) <<< 16 := by rw [Nat.shiftLeft_eq]; omega
  refine BitVec.eq_of_toNat_eq ?_
  rw [BitVec.toNat_or, BitVec.toNat_shiftLeft, BitVec.toNat_ofNat, BitVec.toNat_ofNat, BitVec.toNat_ofNat, Nat.shiftLeft_eq,
    hlow, Nat.mod_eq_of_lt (a := b) (by omega), ← Nat.shiftLeft_add_eq_or_of_lt hb, Nat.shiftLeft_eq]
  omega

/-! RUN (R230) -/

theorem frameCount_eq (n : Nat) : frameCount n = (n + 99) / 100 := rfl

theorem startRun_frames_eq {s : State} (h : s.StorageInv) :
    (startRun s).stats.frames = BitVec.ofNat 32 (frameCount s.bitbuf.length + 1) := by
  rw [← startRun_ndata h, ← startRun_frames s, BitVec.ofNat_toNat, BitVec.setWidth_eq]

theorem startRun_phase_cases (s : State) : (startRun s).phase = .build ∨ (startRun s).phase = .cksum := ite_eq_or_eq _ _ _

/-- An empty source has no frame to build. -/
theorem startRun_phase {s : State} (h : s.StorageInv) :
    (startRun s).phase = if s.bitbuf = [] then .cksum else .build := by
  have hphase : (startRun s).phase = if 0#17 < (startRun s).ndata then .build else .cksum := rfl
  have hpos : 0#17 < (startRun s).ndata ↔ s.bitbuf ≠ [] := by
    rw [BitVec.lt_def, startRun_ndata h, frameCount_eq, ← List.length_pos_iff, BitVec.toNat_ofNat]
    omega
  by_cases hempty : s.bitbuf = []
  · rw [hphase, if_pos hempty, if_neg (fun hlt => hpos.1 hlt hempty)]
  · rw [hphase, if_neg hempty, if_pos (hpos.2 hempty)]

/-- Settles O24: an accepted RUN is `startRun`, whose frame count fits the storage. -/
theorem runCommand : Obligations.RunCommand := by
  refine ⟨by decide, fun v s hidle hopc hopnd => ?_, fun s hbusy => exec_of_busy hbusy nofun nofun,
    fun s hidle herr => (whenIdle_of_idle hidle _).trans (if_pos herr), fun s hs hidle herr => ⟨frameCount_le hs, ?_⟩⟩
  · exact commandWrite_of_reservedSet hidle (.inl ⟨by rw [hopc]; decide, hopnd⟩)
  · rw [exec_run_of_idle hidle herr, ← startRun_phase hs, ← frameCount_eq, ← startRun_frames_eq hs]
    rfl

/-! The step of each phase (R231) -/

theorem phaseStep_build {s : State} (hp : s.phase = .build) : phaseStep s = stepBuild s := by rw [phaseStep, hp]
theorem phaseStep_cksum {s : State} (hp : s.phase = .cksum) : phaseStep s = stepCksum s := by rw [phaseStep, hp]
theorem phaseStep_send {s : State} (hp : s.phase = .send) : phaseStep s = stepSend s := by rw [phaseStep, hp]
theorem phaseStep_loss {s : State} (hp : s.phase = .loss) : phaseStep s = stepLoss s := by rw [phaseStep, hp]
theorem phaseStep_corr {s : State} (hp : s.phase = .corr) : phaseStep s = stepCorr s := by rw [phaseStep, hp]
theorem phaseStep_recv {s : State} (hp : s.phase = .recv) : phaseStep s = stepRecv s := by rw [phaseStep, hp]
theorem phaseStep_ack {s : State} (hp : s.phase = .ack) : phaseStep s = stepAck s := by rw [phaseStep, hp]
theorem phaseStep_summary {s : State} (hp : s.phase = .summary) : phaseStep s = stepSummary s := by rw [phaseStep, hp]
theorem phaseStep_finish {s : State} (hp : s.phase = .finish) : phaseStep s = stepFinish s := by rw [phaseStep, hp]

/-! What each decision makes of its step (R237, R238, R240) -/

theorem stepLoss_of_lost {s : State} (h : dataLost s.drawVal = true) :
    stepLoss s = attemptFailed
      (push (delivery .lost s) { takeDraw s with stats := { s.stats with lost := s.stats.lost + 1#32 } }) :=
  if_pos h

theorem stepLoss_of_kept {s : State} (h : ¬ dataLost s.drawVal = true) : stepLoss s = { takeDraw s with phase := .corr } :=
  if_neg h

theorem stepCorr_of_data {s : State} (hdata : s.fidx < s.ndata) (h : dataCorrupt s.drawVal = true) :
    stepCorr s = push (delivery .corrupted s)
      { takeDraw s with phase := .recv, stats := { s.stats with corrupt := s.stats.corrupt + 1#32 } } :=
  (if_pos hdata).trans (if_pos h)

theorem stepCorr_of_control {s : State} (hctl : ¬ s.fidx < s.ndata) (h : ctrlCorrupt s.drawVal = true) :
    stepCorr s = push (delivery .corrupted s)
      { takeDraw s with phase := .recv, stats := { s.stats with csCorrupt := s.stats.csCorrupt + 1#32 } } :=
  (if_neg hctl).trans (if_pos h)

/-- Whether the draw corrupts the frame in flight, by the frame's role (R210, R238). -/
def State.corrupted (s : State) : Bool := if s.fidx < s.ndata then dataCorrupt s.drawVal else ctrlCorrupt s.drawVal

theorem stepCorr_of_clean {s : State} (h : s.corrupted = false) : stepCorr s = { takeDraw s with phase := .recv } := by
  have hnot : s.corrupted ≠ true := by simp [h]
  by_cases hdata : s.fidx < s.ndata
  · rw [State.corrupted, if_pos hdata] at hnot
    exact (if_pos hdata).trans (if_neg hnot)
  · rw [State.corrupted, if_neg hdata] at hnot
    exact (if_neg hdata).trans (if_neg hnot)

/-- CORR counts for a data frame, counts for the control frame, or counts nothing. -/
theorem State.corrupted_cases (s : State) :
    (s.fidx < s.ndata ∧ dataCorrupt s.drawVal = true) ∨ (¬ s.fidx < s.ndata ∧ ctrlCorrupt s.drawVal = true) ∨
      s.corrupted = false := by
  rw [State.corrupted]
  split <;> simp [*]

theorem stepAck_of_lost {s : State} (h : ackLost s.drawVal = true) :
    stepAck s = attemptFailed
      (push (delivery .ackLost s) { takeDraw s with stats := { s.stats with ackLost := s.stats.ackLost + 1#32 } }) :=
  if_pos h

theorem stepAck_of_received {s : State} (h : ¬ ackLost s.drawVal = true) :
    stepAck s = endFrame (push (delivery .ackReceived s) (takeDraw s)) :=
  if_neg h

/-! The enabling rule (R233) -/

/-- Settles O37: the rule is `State.enabled_iff`, with the phases' needs and draws as R28 gives them. -/
theorem enablingRule : Obligations.EnablingRule := by
  intro s hp need
  have hdrawing : s.phase.drawing = true ↔ s.phase = .loss ∨ s.phase = .corr ∨ s.phase = .ack := by
    rw [Phase.drawing_eq, decide_eq_true_iff]
  refine ⟨?_, sequencerStep_of_not_enabled⟩
  rw [State.enabled_iff, Phase.need_eq hp, hdrawing]
  exact and_iff_right hp

/-! The events' words (R91 to R93) -/

theorem frameCrcEvent_eq (i : Word) (c : BitVec 16) :
    frameCrcEvent i c = [0x11000000#32, BitVec.ofNat 32 (i.toNat * 2 ^ 16 + c.toNat)] := by
  rw [frameCrcEvent, ← ofNat_shiftLeft_or_ofNat _ c.isLt, BitVec.ofNat_toNat, BitVec.ofNat_toNat, BitVec.setWidth_eq]

theorem checksumEvent_eq (sum : BitVec 8) :
    checksumEvent sum = [BitVec.ofNat 32 (0x20000000 + (sum.toNat + 1) * 2 ^ 8 + (255 - sum.toNat))] := by
  revert sum; decide

/-- FIDX and ATT in the payload of a DELIVERY (R93). -/
theorem delivery_eq (k : Kind) (s : State) :
    delivery k s =
      [if s.fidx = s.ndata then deliveryHeader k true else deliveryHeader k false,
        BitVec.ofNat 32 (s.fidx.toNat * 2 ^ 16 + s.att.toNat)] := by
  have hatt := s.att.isLt
  rw [delivery, ← ofNat_shiftLeft_or_ofNat _ (by omega), BitVec.ofNat_toNat, BitVec.ofNat_toNat, State.ctl]
  split <;> simp [*]

theorem deliveryHeader_eq (k : Kind) (ctl : Bool) :
    deliveryHeader k ctl =
      match k, ctl with
      | .sent, false => 0x31000000#32
      | .sent, true => 0x31080000#32
      | .lost, false => 0x31100000#32
      | .lost, true => 0x31180000#32
      | .corrupted, false => 0x31A00000#32
      | .corrupted, true => 0x31A80000#32
      | .received, false => 0x31B00000#32
      | .received, true => 0x31B80000#32
      | .ackLost, false => 0x31400000#32
      | .ackLost, true => 0x31480000#32
      | .ackReceived, false => 0x31500000#32
      | .ackReceived, true => 0x31580000#32 := by
  cases k <;> cases ctl <;> decide

/-! BUILD and CKSUM (R234, R235) -/

/-- Settles O38: the last index is NDATA - 1, and neither count wraps. -/
theorem buildStep : Obligations.BuildStep := by
  intro s hinv hen hp i p c
  obtain ⟨hlt, -, -⟩ := (controlInv_build hp).1 hinv.control
  have hlast : s.nframes + 1#32 = s.ndata.setWidth 32 ↔ i + 1 = s.ndata.toNat := by
    have hn := ndata_le hinv.storage
    rw [BitVec.toNat_eq, BitVec.toNat_add, BitVec.toNat_setWidth_of_le (by decide), BitVec.toNat_ofNat]
    omega
  refine ⟨hlt, ?_⟩
  rw [sequencerStep_of_enabled hen, phaseStep_build hp]
  simp only [stepBuild, hlast, frameCrcEvent_eq]
  rw [add_one_eq_ofNat]
  rfl

/-- The sum of R235: both bytes of each CRC in CTAB, the high byte first. -/
theorem cksSum_cksInput_eq_foldl (s : State) :
    cksSum (cksInput s) = (List.range s.ndata.toNat).foldl
      (fun x i => cksAdd (cksAdd x ((s.crcAt i).extractLsb' 8 8)) ((s.crcAt i).extractLsb' 0 8)) 0#8 := by
  rw [cksSum, cksInput, List.foldl_flatMap]
  rfl

theorem cksResult_eq (sum : BitVec 8) : cksResult sum = BitVec.ofNat 8 (255 - sum.toNat) := by
  refine BitVec.eq_of_toNat_eq ?_
  have hsum := sum.isLt
  rw [cksResult, BitVec.toNat_not, BitVec.toNat_ofNat]
  omega

/-- Settles O39: the fold is the checksum of `cksInput`, and CHECKSUM's two values do not overlap. -/
theorem cksumStep : Obligations.CksumStep := by
  intro s _ hen hp sum
  have hsum : cksSum (cksInput s) = sum := cksSum_cksInput_eq_foldl s
  have hnext : s.ndata.setWidth 32 + 1#32 = BitVec.ofNat 32 (s.ndata.toNat + 1) := by
    rw [add_one_eq_ofNat, BitVec.toNat_setWidth_of_le (by decide)]
  rw [sequencerStep_of_enabled hen, phaseStep_cksum hp]
  simp only [stepCksum, hsum, checksumEvent_eq, cksResult_eq, hnext]
  rfl

/-! The end of an attempt and of a frame (R250, R251) -/

theorem attemptFailed_of_lt {s : State} (h : s.att.toNat < 100) : attemptFailed s = { s with phase := .send } :=
  if_pos (BitVec.lt_def.2 h)

theorem attemptFailed_of_cap {s : State} (h : s.att.toNat = 100) :
    attemptFailed s = endFrame { s with caphit := true, stats := { s.stats with abandoned := s.stats.abandoned + 1#32 } } :=
  if_neg (by rw [BitVec.lt_def, h]; decide)

theorem endFrame_eq {s : State} (hf : s.fidx ≤ s.ndata) (hn : s.ndata.toNat ≤ 65280) :
    endFrame s =
      { s with
        stats :=
          if s.stats.maxAtt.toNat < s.att.toNat then
            { s.stats with maxAtt := BitVec.ofNat 32 s.att.toNat, maxFrame := BitVec.ofNat 32 s.fidx.toNat }
          else s.stats
        fidx := BitVec.ofNat 17 (s.fidx.toNat + 1)
        att := 0#7
        phase := if s.fidx < s.ndata then .send else .summary } := by
  have hmax : s.att.setWidth 32 > s.stats.maxAtt ↔ s.stats.maxAtt.toNat < s.att.toNat := by
    rw [gt_iff_lt, BitVec.lt_def, BitVec.toNat_setWidth_of_le (by decide)]
  have hnext : s.fidx + 1#17 ≤ s.ndata ↔ s.fidx < s.ndata := by
    constructor <;> intro h <;> bv_omega
  simp only [endFrame, hmax, hnext, BitVec.ofNat_toNat]
  rw [add_one_eq_ofNat]

/-- Settles O45: `attemptFailed`'s two sides, and `endFrame_eq`. -/
theorem retryCapAndFrameEnd : Obligations.RetryCapAndFrameEnd :=
  ⟨fun _ => attemptFailed_of_lt, fun _ => attemptFailed_of_cap, fun _ => endFrame_eq⟩

/-! The delivery steps (R236 to R240) -/

/-- Settles O40: ATT is below the cap, so its sum does not wrap. -/
theorem sendStep : Obligations.SendStep := by
  intro s hinv hen hp
  obtain ⟨-, -, hatt⟩ := (controlInv_send hp).1 hinv.control
  have hlt : s.att.toNat < 100 := BitVec.lt_def.1 hatt
  have hnext : (s.att + 1#7).toNat = s.att.toNat + 1 := by bv_omega
  refine ⟨hlt, ?_⟩
  rw [sequencerStep_of_enabled hen, phaseStep_send hp, ← add_one_eq_ofNat]
  simp only [stepSend, delivery_eq, deliveryHeader_eq, hnext]
  rfl

/-- Settles O41: the frame that takes the loss decision is a data frame. -/
theorem lossStep : Obligations.LossStep := by
  intro s hinv hen hp
  obtain ⟨-, hdata, -⟩ := (controlInv_loss hp).1 hinv.control
  have hne : s.fidx ≠ s.ndata := BitVec.ne_of_lt hdata
  rw [sequencerStep_of_enabled hen, phaseStep_loss hp]
  refine ⟨fun hdraw => ?_, fun hdraw => stepLoss_of_kept (mt dataLost_iff.1 (Nat.not_lt.2 hdraw))⟩
  rw [stepLoss_of_lost (dataLost_iff.2 hdraw), delivery_eq, if_neg hne, deliveryHeader_eq]
  rfl

/-- Settles O42: the frame's role says which decision is taken. -/
theorem corrStep : Obligations.CorrStep := by
  intro s _ hen hp at'
  rw [sequencerStep_of_enabled hen, phaseStep_corr hp]
  refine ⟨fun hdata hdraw => ?_, fun hctl hdraw => ?_, fun hclean => stepCorr_of_clean ?_⟩
  · have hne : s.fidx ≠ s.ndata := BitVec.ne_of_lt hdata
    rw [stepCorr_of_data hdata (dataCorrupt_iff.2 hdraw), delivery_eq, if_neg hne, deliveryHeader_eq]
    rfl
  · have hnlt : ¬ s.fidx < s.ndata := hctl ▸ BitVec.lt_irrefl _
    rw [stepCorr_of_control hnlt (ctrlCorrupt_iff.2 hdraw), delivery_eq, if_pos hctl, deliveryHeader_eq]
    rfl
  · rw [State.corrupted, ← Bool.not_eq_true]
    obtain ⟨hdata, hdraw⟩ | ⟨hctl, hdraw⟩ := hclean
    · rw [if_pos hdata]
      exact mt dataCorrupt_iff.1 (Nat.not_lt.2 hdraw)
    · rw [if_neg (hctl ▸ BitVec.lt_irrefl _)]
      exact mt ctrlCorrupt_iff.1 (Nat.not_lt.2 hdraw)

/-- Settles O43: both sides of the acknowledgment's decision. -/
theorem ackStep : Obligations.AckStep := by
  intro s _ hen hp at'
  rw [sequencerStep_of_enabled hen, phaseStep_ack hp]
  refine ⟨fun hdraw => ?_, fun hdraw => ?_⟩
  · rw [stepAck_of_lost (ackLost_iff.2 hdraw), delivery_eq, deliveryHeader_eq, deliveryHeader_eq]
    rfl
  · rw [stepAck_of_received (mt ackLost_iff.1 (Nat.not_lt.2 hdraw)), delivery_eq, deliveryHeader_eq, deliveryHeader_eq]
    rfl

/-- Settles O44: the three steps push one event and go on. -/
theorem recvSummaryFinishSteps : Obligations.RecvSummaryFinishSteps := by
  intro s _ hen
  rw [sequencerStep_of_enabled hen]
  refine ⟨fun hp => ?_, fun hp => ?_, fun hp => ?_⟩
  · rw [phaseStep_recv hp, stepRecv, delivery_eq, deliveryHeader_eq, deliveryHeader_eq]
    rfl
  · rw [phaseStep_summary hp]
    rfl
  · rw [phaseStep_finish hp]
    rfl

end Sys2Proof.Machine
end

section
/-! SUPPORT. The statistics' balance: what SEND, the two losses, the corruptions and the end of a frame do to the counters, and
that every step keeps the balance (R236 to R240, R250 to R254). -/

namespace Sys2Proof.Machine

theorem toNat_add_one {w : Nat} {x : BitVec w} (h : x.toNat + 1 < 2 ^ w) : (x + 1#w).toNat = x.toNat + 1 := by
  rw [add_one_eq_ofNat, BitVec.toNat_ofNat, Nat.mod_eq_of_lt h]

theorem toNat_add_one_le {w : Nat} (x : BitVec w) : (x + 1#w).toNat ≤ x.toNat + 1 := by
  rw [add_one_eq_ofNat, BitVec.toNat_ofNat]
  exact Nat.mod_le _ _

/-! The counters while an attempt is in flight -/

/-- An attempt of the frame FIDX is under way: what the invariant asks of the counters in LOSS, CORR, RECV and ACK. -/
structure State.Attempting (s : State) : Prop where
  ndataFits : s.ndata.toNat ≤ 65280
  fidxLe : s.fidx.toNat ≤ s.ndata.toNat
  attPos : 1 ≤ s.att.toNat
  attLe : s.att.toNat ≤ 100

theorem State.Inv.attempting_of_loss {s : State} (h : s.Inv) (hp : s.phase = .loss) : s.Attempting := by
  obtain ⟨-, hf, hlow, hhigh⟩ := (controlInv_loss hp).1 h.control
  exact ⟨ndata_le h.storage, BitVec.le_def.1 (BitVec.le_of_lt hf), BitVec.le_def.1 hlow, BitVec.le_def.1 hhigh⟩

theorem State.Inv.attempting {s : State} (h : s.Inv) (hp : s.phase = .corr ∨ s.phase = .recv ∨ s.phase = .ack) :
    s.Attempting := by
  obtain ⟨-, hf, hlow, hhigh⟩ := (controlInv_attempt hp).1 h.control
  exact ⟨ndata_le h.storage, BitVec.le_def.1 hf, BitVec.le_def.1 hlow, BitVec.le_def.1 hhigh⟩

theorem busy_of_phase {s : State} {p : Phase} (hp : s.phase = p) (hne : p ≠ .idle) : s.busy = true :=
  State.busy_eq_true.2 (hp ▸ hne)

/-- No counter of a run comes near the width of its register (R254). -/
theorem State.StatsInv.attempts_le {s : State} (h : s.StatsInv) (hf : s.fidx.toNat ≤ 65281) (ha : s.att.toNat ≤ 100) :
    s.stats.attempts.toNat ≤ 6528200 := by
  have := h.attemptsHigh
  omega

theorem State.StatsInv.losses_le {s : State} (h : s.StatsInv) (hs : s.Attempting) :
    s.stats.lost.toNat + s.stats.ackLost.toNat ≤ 6528200 := by
  have := h.attempts_le (Nat.le_succ_of_le (hs.fidxLe.trans hs.ndataFits)) hs.attLe
  have := h.losses
  have := h.abandoned
  omega

/-! The end of a frame (R251) -/

@[simp] theorem endFrame_att (s : State) : (endFrame s).att = 0#7 := rfl
@[simp] theorem endFrame_stats_frames (s : State) : (endFrame s).stats.frames = s.stats.frames := by
  unfold endFrame; dsimp only; split <;> rfl
@[simp] theorem endFrame_stats_attempts (s : State) : (endFrame s).stats.attempts = s.stats.attempts := by
  unfold endFrame; dsimp only; split <;> rfl
@[simp] theorem endFrame_stats_lost (s : State) : (endFrame s).stats.lost = s.stats.lost := by
  unfold endFrame; dsimp only; split <;> rfl
@[simp] theorem endFrame_stats_corrupt (s : State) : (endFrame s).stats.corrupt = s.stats.corrupt := by
  unfold endFrame; dsimp only; split <;> rfl
@[simp] theorem endFrame_stats_ackLost (s : State) : (endFrame s).stats.ackLost = s.stats.ackLost := by
  unfold endFrame; dsimp only; split <;> rfl
@[simp] theorem endFrame_stats_csCorrupt (s : State) : (endFrame s).stats.csCorrupt = s.stats.csCorrupt := by
  unfold endFrame; dsimp only; split <;> rfl
@[simp] theorem endFrame_stats_abandoned (s : State) : (endFrame s).stats.abandoned = s.stats.abandoned := by
  unfold endFrame; dsimp only; split <;> rfl

/-- Between two attempts nothing is in flight. -/
theorem endFrame_phase (s : State) : (endFrame s).phase.inFlight = 0 ∧ (endFrame s).phase.beforeCorr = 0 := by
  unfold endFrame; dsimp only; split <;> exact ⟨rfl, rfl⟩

theorem endFrame_fidx {s : State} (hs : s.Attempting) : (endFrame s).fidx.toNat = s.fidx.toNat + 1 := by
  have := hs.fidxLe
  have := hs.ndataFits
  exact toNat_add_one (by omega)

/-- STAT_MAXATT and STAT_MAXFRAME change together, when the frame's attempts exceed the maximum so far. -/
theorem endFrame_max (s : State) :
    (s.stats.maxAtt.toNat < s.att.toNat ∧ (endFrame s).stats.maxAtt.toNat = s.att.toNat ∧
        (endFrame s).stats.maxFrame.toNat = s.fidx.toNat) ∨
      (s.att.toNat ≤ s.stats.maxAtt.toNat ∧ (endFrame s).stats.maxAtt.toNat = s.stats.maxAtt.toNat ∧
        (endFrame s).stats.maxFrame.toNat = s.stats.maxFrame.toNat) := by
  have hatt : (s.att.setWidth 32).toNat = s.att.toNat := BitVec.toNat_setWidth_of_le (by decide)
  have hfidx : (s.fidx.setWidth 32).toNat = s.fidx.toNat := BitVec.toNat_setWidth_of_le (by decide)
  unfold endFrame
  dsimp only
  split
  · exact .inl ⟨hatt ▸ BitVec.lt_def.1 ‹_›, hatt, hfidx⟩
  · exact .inr ⟨hatt ▸ BitVec.le_def.1 (BitVec.not_lt.1 ‹_›), rfl, rfl⟩

/-! The balance, field by field -/

/-- The control frame's corruptions against its attempts: none before its turn, at most one an attempt in its turn. -/
theorem csCorruptions_iff {s : State} :
    (s.stats.csCorrupt.toNat + (if s.fidx = s.ndata then s.phase.beforeCorr else 0) ≤
        if s.fidx < s.ndata then 0 else if s.fidx = s.ndata then s.att.toNat else 100) ↔
      (s.fidx.toNat < s.ndata.toNat → s.stats.csCorrupt.toNat = 0) ∧
        (s.fidx.toNat = s.ndata.toNat → s.stats.csCorrupt.toNat + s.phase.beforeCorr ≤ s.att.toNat) ∧
        (s.ndata.toNat < s.fidx.toNat → s.stats.csCorrupt.toNat ≤ 100) := by
  simp only [BitVec.lt_def, BitVec.toNat_eq]
  obtain hlt | heq | hgt := Nat.lt_trichotomy s.fidx.toNat s.ndata.toNat
  · rw [if_neg (Nat.ne_of_lt hlt), if_pos hlt]
    omega
  · rw [if_pos heq, if_neg (Nat.not_lt.2 (Nat.le_of_eq heq.symm)), if_pos heq]
    omega
  · rw [if_neg (Nat.ne_of_gt hgt), if_neg (Nat.lt_asymm hgt), if_neg (Nat.ne_of_gt hgt)]
    omega

/-- Closing a frame whose attempts have all been decided, once the loss balance counts it as acknowledged or, with `b`, as given
up. -/
theorem endFrame_statsInv {s : State} {c : Bool} {b : Word} (h : s.StatsInv) (hs : s.Attempting) (hbusy : s.busy = true)
    (hdone : s.done = false)
    (hlosses : s.stats.lost.toNat + s.stats.ackLost.toNat + s.fidx.toNat + 1 = s.stats.attempts.toNat + b.toNat)
    (hgiven : b.toNat ≤ s.fidx.toNat + 1) (hcap : c = true ↔ b ≠ 0#32) :
    (endFrame { s with caphit := c, stats := { s.stats with abandoned := b } }).StatsInv := by
  have hfidx := endFrame_fidx (s := { s with caphit := c, stats := { s.stats with abandoned := b } }) { hs with }
  obtain ⟨hin, hbefore⟩ := endFrame_phase { s with caphit := c, stats := { s.stats with abandoned := b } }
  have hmax := endFrame_max { s with caphit := c, stats := { s.stats with abandoned := b } }
  obtain ⟨hdata, hctl, -⟩ := csCorruptions_iff.1 h.csCorruptions
  obtain ⟨-, hle, hpos, hatt⟩ := hs
  obtain ⟨hframes, hlow, hhigh, -, hcorrupt, -, hmaxAtt, -, hmaxFrame, -, -, -⟩ := h
  dsimp only at hfidx hmax
  refine ⟨?frames, ?low, ?high, ?losses, ?corruptions, csCorruptions_iff.2 ?csCorruptions, ?maxAtt, fun _ => ?maxAttLow,
      ?maxFrame, ?abandoned, ?capHit, ?ended⟩ <;>
    simp only [hfidx, hin, hbefore, endFrame_att, endFrame_ndata, endFrame_caphit, endFrame_done, endFrame_stats_frames,
      endFrame_stats_attempts, endFrame_stats_lost, endFrame_stats_corrupt, endFrame_stats_ackLost,
      endFrame_stats_csCorrupt, endFrame_stats_abandoned, BitVec.toNat_zero]
  case frames => exact fun _ => hframes (.inl hbusy)
  case capHit => exact hcap
  case ended => simp [hdone]
  all_goals omega

/-- A failed attempt, with its loss counted: below the cap the frame is sent again, at the cap it is given up and closed. -/
theorem attemptFailed_statsInv {s : State} (h : { s with phase := .send }.StatsInv) (hs : s.Attempting)
    (hdone : s.done = false) : (attemptFailed s).StatsInv := by
  obtain hlt | hcap := Nat.lt_or_eq_of_le hs.attLe
  · rw [attemptFailed_of_lt hlt]
    exact h
  · have hgiven := h.abandoned
    have hlosses := h.losses
    have hfidx := hs.fidxLe
    have hndata := hs.ndataFits
    dsimp only at hgiven
    have hnext : (s.stats.abandoned + 1#32).toNat = s.stats.abandoned.toNat + 1 := toNat_add_one (by omega)
    rw [attemptFailed_of_cap hcap]
    refine endFrame_statsInv (s := { s with phase := .send }) h { hs with } rfl hdone ?_ ?_ (iff_of_true rfl ?_)
    · rw [hnext, ← Nat.add_assoc]
      exact congrArg (· + 1) hlosses
    · rw [hnext]
      exact Nat.succ_le_succ hgiven
    · intro hzero
      rw [hzero] at hnext
      cases hnext

/-! The steps (R236 to R240, R260, R261) -/

/-- New loss and data-frame corruption counts, in step with what has been decided of the attempt in flight. -/
theorem State.StatsInv.recount {s : State} (h : s.StatsInv) (hbusy : s.busy = true) {p : Phase} {lost ackLost corrupt : Word}
    (hlosses : lost.toNat + ackLost.toNat + p.inFlight =
      s.stats.lost.toNat + s.stats.ackLost.toNat + s.phase.inFlight)
    (hcorruptions : corrupt.toNat + lost.toNat + p.beforeCorr ≤
      s.stats.corrupt.toNat + s.stats.lost.toNat + s.phase.beforeCorr)
    (hbefore : p.beforeCorr ≤ s.phase.beforeCorr) :
    { s with phase := p, stats := { s.stats with lost := lost, ackLost := ackLost, corrupt := corrupt } }.StatsInv := by
  obtain ⟨hdata, hctl, hpast⟩ := csCorruptions_iff.1 h.csCorruptions
  have hsent := h.losses
  have hheld := h.corruptions
  refine
    { h with
      frames := fun _ => h.frames (.inl hbusy)
      losses := ?_
      corruptions := ?_
      csCorruptions := csCorruptions_iff.2 ⟨hdata, fun heq => (Nat.add_le_add_left hbefore _).trans (hctl heq), hpast⟩ } <;>
    dsimp only <;> omega

/-- A step that counts nothing, and leaves an attempt in flight if there was one. -/
theorem State.StatsInv.withPhase {s : State} (h : s.StatsInv) (hbusy : s.busy = true) {p : Phase}
    (hin : p.inFlight = s.phase.inFlight) (hbefore : p.beforeCorr ≤ s.phase.beforeCorr) :
    { s with phase := p }.StatsInv :=
  h.recount hbusy (by rw [hin]) (Nat.add_le_add_left hbefore _) hbefore

/-- While a run is in progress DONE is 0 (R29). -/
theorem State.Inv.not_done {s : State} (h : s.Inv) (hbusy : s.busy = true) : s.done = false :=
  (h.run hbusy).2

theorem stepSend_phase (s : State) : (stepSend s).phase.inFlight = 1 ∧ (stepSend s).phase.beforeCorr = 1 := by
  have hphase : (stepSend s).phase = if s.fidx < s.ndata then .loss else .corr := rfl
  rw [hphase]
  split <;> exact ⟨rfl, rfl⟩

/-- What SEND starts from (R236). -/
theorem State.Inv.sending {s : State} (h : s.Inv) (hp : s.phase = .send) :
    s.ndata.toNat ≤ 65280 ∧ s.fidx.toNat ≤ s.ndata.toNat ∧ s.att.toNat < 100 := by
  obtain ⟨-, hf, hatt⟩ := (controlInv_send hp).1 h.control
  exact ⟨ndata_le h.storage, BitVec.le_def.1 hf, BitVec.lt_def.1 hatt⟩

theorem stepSend_att {s : State} (h : s.Inv) (hp : s.phase = .send) : (stepSend s).att.toNat = s.att.toNat + 1 := by
  obtain ⟨-, -, hatt⟩ := h.sending hp
  exact toNat_add_one (by omega)

theorem stepSend_attempts {s : State} (hinv : s.Inv) (h : s.StatsInv) (hp : s.phase = .send) :
    (stepSend s).stats.attempts.toNat = s.stats.attempts.toNat + 1 := by
  obtain ⟨hn, hfidx, hatt⟩ := hinv.sending hp
  have := h.attempts_le (by omega) (by omega)
  exact toNat_add_one (by omega)

/-- SEND puts an attempt in flight, and counts it in ATT and in STAT_ATTEMPTS. -/
theorem stepSend_statsInv {s : State} (hinv : s.Inv) (h : s.StatsInv) (hp : s.phase = .send) : (stepSend s).StatsInv := by
  have hbusy : s.busy = true := busy_of_phase hp nofun
  have hdone : (stepSend s).done = false := hinv.not_done hbusy
  have hatt := stepSend_att hinv hp
  have hattempts := stepSend_attempts hinv h hp
  obtain ⟨hin, hbefore⟩ := stepSend_phase s
  obtain ⟨hdata, hctl, hpast⟩ := csCorruptions_iff.1 h.csCorruptions
  have hlosses := h.losses
  have hcorruptions := h.corruptions
  rw [hp] at hlosses hcorruptions hctl
  dsimp only [Phase.inFlight, Phase.beforeCorr] at hlosses hcorruptions hctl
  refine
    { h with
      frames := fun _ => h.frames (.inl hbusy)
      attemptsLow := ?_
      attemptsHigh := ?_
      losses := ?_
      corruptions := ?_
      csCorruptions := csCorruptions_iff.2 ⟨hdata, fun heq => ?_, hpast⟩
      ended := by simp [hdone] }
  · have := h.attemptsLow
    rw [hatt, hattempts]
    exact Nat.succ_le_succ this
  · have := h.attemptsHigh
    rw [hatt, hattempts]
    exact Nat.succ_le_succ this
  · rw [hin, hattempts]
    show s.stats.lost.toNat + s.stats.ackLost.toNat + s.fidx.toNat + 1 = s.stats.attempts.toNat + 1 + s.stats.abandoned.toNat
    omega
  · rw [hbefore, hattempts]
    exact Nat.succ_le_succ hcorruptions
  · rw [hbefore, hatt]
    exact Nat.succ_le_succ (hctl heq)

/-- A loss of the data frame in flight, counted. -/
theorem State.StatsInv.countLost {s : State} (h : s.StatsInv) (hs : s.Attempting) (hp : s.phase = .loss) :
    { s with phase := .send, stats := { s.stats with lost := s.stats.lost + 1#32 } }.StatsInv := by
  have := h.losses_le hs
  have hlost : (s.stats.lost + 1#32).toNat = s.stats.lost.toNat + 1 := toNat_add_one (by omega)
  refine h.recount (busy_of_phase hp nofun) ?_ ?_ ?_ <;> rw [hp] <;> dsimp only [Phase.inFlight, Phase.beforeCorr] <;> omega

/-- A lost acknowledgment of the frame in flight, counted. -/
theorem State.StatsInv.countAckLost {s : State} (h : s.StatsInv) (hs : s.Attempting) (hp : s.phase = .ack) :
    { s with phase := .send, stats := { s.stats with ackLost := s.stats.ackLost + 1#32 } }.StatsInv := by
  have := h.losses_le hs
  have hlost : (s.stats.ackLost + 1#32).toNat = s.stats.ackLost.toNat + 1 := toNat_add_one (by omega)
  refine h.recount (busy_of_phase hp nofun) ?_ ?_ ?_ <;> rw [hp] <;> dsimp only [Phase.inFlight, Phase.beforeCorr] <;> omega

/-- A corruption of the data frame in flight, counted. -/
theorem State.StatsInv.countCorrupt {s : State} (h : s.StatsInv) (hp : s.phase = .corr) :
    { s with phase := .recv, stats := { s.stats with corrupt := s.stats.corrupt + 1#32 } }.StatsInv := by
  have hcorrupt := toNat_add_one_le s.stats.corrupt
  refine h.recount (busy_of_phase hp nofun) ?_ ?_ ?_ <;> rw [hp] <;> dsimp only [Phase.inFlight, Phase.beforeCorr] <;> omega

/-- A corruption of the control frame in flight, counted. -/
theorem State.StatsInv.countCsCorrupt {s : State} (h : s.StatsInv) (hp : s.phase = .corr) (hctl : s.fidx = s.ndata) :
    { s with phase := .recv, stats := { s.stats with csCorrupt := s.stats.csCorrupt + 1#32 } }.StatsInv := by
  have hbusy : s.busy = true := busy_of_phase hp nofun
  have hturn : s.fidx.toNat = s.ndata.toNat := congrArg BitVec.toNat hctl
  obtain ⟨-, hcs, -⟩ := csCorruptions_iff.1 h.csCorruptions
  replace hcs := hcs hturn
  have hlosses := h.losses
  have hcorruptions := h.corruptions
  rw [hp] at hlosses hcorruptions hcs
  dsimp only [Phase.beforeCorr] at hcorruptions hcs
  have hcorrupt := toNat_add_one_le s.stats.csCorrupt
  refine
    { h with
      frames := fun _ => h.frames (.inl hbusy)
      losses := hlosses
      corruptions := ?_
      csCorruptions := csCorruptions_iff.2 ⟨fun hlt => ?_, fun _ => ?_, fun hgt => ?_⟩ } <;>
    dsimp only [Phase.beforeCorr] at * <;> omega

theorem stepLoss_statsInv {s : State} (hinv : s.Inv) (h : s.StatsInv) (hp : s.phase = .loss) : (stepLoss s).StatsInv := by
  have hbusy : s.busy = true := busy_of_phase hp nofun
  have hs := hinv.attempting_of_loss hp
  by_cases hlost : dataLost s.drawVal = true
  · rw [stepLoss_of_lost hlost]
    exact attemptFailed_statsInv { h.countLost hs hp with } { hs with } (hinv.not_done hbusy)
  · rw [stepLoss_of_kept hlost]
    exact { h.withPhase hbusy (p := .corr) (by rw [hp]; rfl) (by rw [hp]; exact Nat.le_refl 1) with }

/-- The frame that takes the corruption decision and is not a data frame is the control frame (R238). -/
theorem State.Inv.fidx_eq_ndata {s : State} (h : s.Inv) (hp : s.phase = .corr) (hctl : ¬ s.fidx < s.ndata) :
    s.fidx = s.ndata := by
  have := (h.attempting (.inl hp)).fidxLe
  bv_omega

theorem stepCorr_statsInv {s : State} (hinv : s.Inv) (h : s.StatsInv) (hp : s.phase = .corr) : (stepCorr s).StatsInv := by
  have hbusy : s.busy = true := busy_of_phase hp nofun
  obtain ⟨hdata, hcorrupt⟩ | ⟨hctl, hcorrupt⟩ | hclean := s.corrupted_cases
  · rw [stepCorr_of_data hdata hcorrupt]
    exact { h.countCorrupt hp with }
  · rw [stepCorr_of_control hctl hcorrupt]
    exact { h.countCsCorrupt hp (hinv.fidx_eq_ndata hp hctl) with }
  · rw [stepCorr_of_clean hclean]
    exact { h.withPhase hbusy (p := .recv) (by rw [hp]; rfl) (Nat.zero_le _) with }

theorem stepAck_statsInv {s : State} (hinv : s.Inv) (h : s.StatsInv) (hp : s.phase = .ack) : (stepAck s).StatsInv := by
  have hbusy : s.busy = true := busy_of_phase hp nofun
  have hs := hinv.attempting (.inr (.inr hp))
  have hlosses := h.losses
  rw [hp] at hlosses
  by_cases hlost : ackLost s.drawVal = true
  · rw [stepAck_of_lost hlost]
    exact attemptFailed_statsInv { h.countAckLost hs hp with } { hs with } (hinv.not_done hbusy)
  · rw [stepAck_of_received hlost]
    exact { endFrame_statsInv h hs hbusy (hinv.not_done hbusy) hlosses (Nat.le_succ_of_le h.abandoned) h.capHit with }

/-- CKSUM clears FIDX and ATT, which are 0 until then (R235). -/
theorem State.Inv.cksum_keeps_counters {s : State} (h : s.Inv) (hp : s.phase = .cksum) :
    { s with phase := .send } = { s with phase := .send, fidx := 0#17, att := 0#7 } := by
  obtain ⟨-, hf, ha⟩ := (controlInv_cksum hp).1 h.control
  rw [← hf, ← ha]

theorem phaseStep_statsInv {s : State} (hinv : s.Inv) (h : s.StatsInv) : (phaseStep s).StatsInv := by
  by_cases hidle : s.phase = .idle
  · rw [phaseStep, hidle]
    exact h
  have hbusy : s.busy = true := State.busy_eq_true.2 hidle
  have quiet {p : Phase} (hin : p.inFlight = s.phase.inFlight) (hbefore : p.beforeCorr ≤ s.phase.beforeCorr) :=
    h.withPhase hbusy hin hbefore
  unfold phaseStep
  split <;> rename_i hp <;> rw [hp] at quiet
  · exact h
  · unfold stepBuild
    dsimp only
    split
    · exact { quiet (p := .cksum) rfl (Nat.le_refl 0) with }
    · exact { quiet (p := .build) rfl (Nat.le_refl 0) with }
  · have hcleared := quiet (p := .send) rfl (Nat.le_refl 0)
    rw [hinv.cksum_keeps_counters hp] at hcleared
    exact { hcleared with }
  · exact stepSend_statsInv hinv h hp
  · exact stepLoss_statsInv hinv h hp
  · exact stepCorr_statsInv hinv h hp
  · exact { quiet (p := .ack) rfl (Nat.le_refl 0) with }
  · exact stepAck_statsInv hinv h hp
  · exact { quiet (p := .finish) rfl (Nat.le_refl 0) with }
  · obtain ⟨-, hclosed⟩ := (controlInv_closed (.inr hp)).1 hinv.control
    exact { quiet (p := .idle) rfl (Nat.le_refl 0) with
      frames := fun _ => h.frames (.inl hbusy)
      ended := fun _ => hclosed }

theorem sequencerStep_statsInv {s : State} (hinv : s.Inv) (h : s.StatsInv) : (sequencerStep s).StatsInv := by
  cases he : s.enabled with
  | false => rw [sequencerStep_of_not_enabled he]; exact h
  | true => rw [sequencerStep_of_enabled he]; exact phaseStep_statsInv hinv h

/-! RUN, the host's other accesses, and reset -/

/-- No attempt has been made: what RUN and reset leave of the counters. -/
structure State.Unsent (s : State) : Prop where
  fidx : s.fidx = 0#17
  att : s.att = 0#7
  stats : s.stats = { Stats.zero with frames := s.stats.frames }
  caphit : s.caphit = false
  done : s.done = false
  inFlight : s.phase.inFlight = 0
  beforeCorr : s.phase.beforeCorr = 0

theorem State.Unsent.statsInv {s : State} (h : s.Unsent) (hframes : s.busy = true → s.stats.frames.toNat = s.ndata.toNat + 1) :
    s.StatsInv := by
  obtain ⟨hfidx, hatt, hstats, hcaphit, hdone, hin, hbefore⟩ := h
  refine ⟨fun hrun => hframes (hrun.resolve_right (by simp [hdone])), ?low, ?high, ?losses, ?corruptions,
    csCorruptions_iff.2 ?csCorruptions, ?maxAtt, fun hne => absurd hfidx hne, ?maxFrame, ?abandoned, ?capHit,
    fun hd => absurd hd (by simp [hdone])⟩ <;> rw [hstats]
  case low | high | losses | corruptions | maxAtt | maxFrame | abandoned => simp [hfidx, hatt, hin, hbefore, Stats.zero]
  case csCorruptions => exact ⟨fun _ => rfl, fun _ => hbefore ▸ Nat.zero_le _, fun _ => Nat.zero_le _⟩
  case capHit => exact iff_of_false (by simp [hcaphit]) fun hne => hne rfl

theorem startRun_unsent (s : State) : (startRun s).Unsent := by
  obtain hp | hp := startRun_phase_cases s <;> exact ⟨rfl, rfl, rfl, rfl, rfl, by rw [hp]; rfl, by rw [hp]; rfl⟩

theorem resetBlock_unsent (d : Option Access) (s : State) : (resetBlock d s).Unsent :=
  ⟨rfl, rfl, rfl, rfl, rfl, rfl, rfl⟩

theorem startRun_statsInv (s : State) : (startRun s).StatsInv := (startRun_unsent s).statsInv fun _ => startRun_frames s

theorem resetBlock_statsInv (d : Option Access) (s : State) : (resetBlock d s).StatsInv :=
  (resetBlock_unsent d s).statsInv fun hb => absurd hb Bool.false_ne_true

theorem raiseError_statsInv {s : State} (h : s.StatsInv) (c : ErrorCause) : (raiseError c s).StatsInv := { h with }

theorem exec_statsInv {i : Instr} {s t : State} (h : s.StatsInv) (ht : exec i s = .next t) : t.StatsInv := by
  obtain rfl | ⟨c, rfl⟩ | ⟨-, rfl⟩ | ⟨-, hcmd⟩ := exec_next ht
  · exact h
  · exact raiseError_statsInv h c
  · exact { h with }
  obtain ⟨-, rfl⟩ | ⟨-, -, -, rfl⟩ | ⟨-, -, rfl⟩ | ⟨-, -, rfl⟩ | ⟨-, -, rfl⟩ | ⟨-, -, rfl⟩ := hcmd
  · exact { h with }
  · exact { h with }
  · exact { h with }
  · exact { h with }
  · exact { h with }
  · exact startRun_statsInv s

theorem drawWrite_statsInv {v : Word} {s t : State} (h : s.StatsInv) (ht : drawWrite v s = .next t) : t.StatsInv := by
  obtain ⟨c, rfl⟩ | ⟨-, -, rfl⟩ := drawWrite_next ht
  · exact raiseError_statsInv h c
  · exact { h with }

theorem transition_statsInv {tr : Transition} {s t : State} (hinv : s.Inv) (h : s.StatsInv)
    (ht : transition tr s = .next t) : t.StatsInv := by
  obtain ⟨a, -, rfl⟩ | ⟨v, -, ht⟩ | ⟨v, -, ht⟩ | ⟨_, _, -, -, -, rfl⟩ | ⟨-, rfl⟩ | ⟨d, -, rfl⟩ := transition_next ht
  · exact { h with }
  · obtain ⟨i, -, ht⟩ | ⟨-, c, -, rfl⟩ := commandWrite_next ht
    · exact exec_statsInv h ht
    · exact raiseError_statsInv h c
  · exact drawWrite_statsInv h ht
  · exact h
  · exact sequencerStep_statsInv hinv h
  · exact resetBlock_statsInv d s

theorem step_statsInv {s t : State} (hinv : s.Inv) (h : s.StatsInv) (ht : step s = .next t) : t.StatsInv := by
  obtain ⟨-, rfl⟩ | ⟨tr, rest, -, ht⟩ := step_next ht
  · exact sequencerStep_statsInv hinv h
  · have hrest : { s with sched := rest }.StatsInv := { h with }
    exact transition_statsInv (withSched_inv hinv rest) hrest ht

end Sys2Proof.Machine
end

section
/-! SUPPORT. The statistics against the SEND steps taken for each frame, and R254's laws at the end of a run. -/

namespace Sys2Proof.Machine

/-! The count of a frame's attempts (R236, R254) -/

/-- `n` with one more attempt of frame `k`. -/
def countSend (n : Nat → Nat) (k : Nat) : Nat → Nat := fun f => if f = k then n f + 1 else n f

theorem countSend_same (n : Nat → Nat) (k : Nat) : countSend n k k = n k + 1 := if_pos rfl

theorem countSend_other (n : Nat → Nat) {k f : Nat} (h : f ≠ k) : countSend n k f = n f := if_neg h

theorem le_countSend (n : Nat → Nat) (k f : Nat) : n f ≤ countSend n k f := by
  rw [countSend]
  split <;> omega

/-- Whether a cause starts the count again: reset, and a RUN that is accepted. -/
abbrev Cause.restarts (c : Cause) (s : State) : Prop := c = .reset ∨ (c = .command .run ∧ s.busy = false ∧ s.err = false)

theorem attemptsAfter_of_send {s : State} (h : s.cause = .sequencer .send) (n : Nat → Nat) :
    s.attemptsAfter n = countSend n s.fidx.toNat :=
  if_pos h

theorem attemptsAfter_of_restart {s : State} (h : s.cause.restarts s) (n : Nat → Nat) : s.attemptsAfter n = fun _ => 0 := by
  have hsend : s.cause ≠ .sequencer .send := by
    obtain h | ⟨h, -⟩ := h <;> rw [h] <;> nofun
  rw [State.attemptsAfter, if_neg hsend, if_pos h]

theorem attemptsAfter_of_other {s : State} (hsend : s.cause ≠ .sequencer .send) (hstart : ¬ s.cause.restarts s)
    (n : Nat → Nat) : s.attemptsAfter n = n := by
  rw [State.attemptsAfter, if_neg hsend, if_neg hstart]

/-! The steps -/

theorem State.Unsent.attemptsInv {s : State} (h : s.Unsent) : s.AttemptsInv fun _ => 0 where
  closed := fun f hlt => absurd hlt (by simp [h.fidx])
  inFlight := by rw [h.att]; rfl
  later := fun _ _ => rfl
  total := by rw [h.stats, h.fidx]; rfl
  maxAtt := fun _ _ => Nat.zero_le _
  maxFrame := by rw [if_pos h.fidx, h.stats]; rfl
  csCorruptions := by rw [h.beforeCorr, ite_self, h.stats]; exact Nat.le_refl 0

/-- The control frame's corruptions against its attempts. -/
theorem csAttempts_iff {s : State} {k : Nat} :
    s.stats.csCorrupt.toNat + (if s.fidx = s.ndata then s.phase.beforeCorr else 0) ≤ k ↔
      s.stats.csCorrupt.toNat ≤ k ∧ (s.fidx = s.ndata → s.stats.csCorrupt.toNat + s.phase.beforeCorr ≤ k) := by
  split
  · exact ⟨fun h => ⟨Nat.le_of_add_right_le h, fun _ => h⟩, fun h => h.2 ‹_›⟩
  · exact ⟨fun h => ⟨h, fun heq => absurd heq ‹_›⟩, fun h => h.1⟩

theorem State.AttemptsInv.withPhase {s : State} {n : Nat → Nat} (h : s.AttemptsInv n) {p : Phase}
    (hbefore : p.beforeCorr ≤ s.phase.beforeCorr) : { s with phase := p }.AttemptsInv n := by
  obtain ⟨hcs, hctl⟩ := csAttempts_iff.1 h.csCorruptions
  exact { h with csCorruptions := csAttempts_iff.2 ⟨hcs, fun heq => Nat.le_trans (Nat.add_le_add_left hbefore _) (hctl heq)⟩ }

theorem stepSend_attemptsInv {s : State} {n : Nat → Nat} (hinv : s.Inv) (hstats : s.StatsInv) (h : s.AttemptsInv n)
    (hp : s.phase = .send) : (stepSend s).AttemptsInv (countSend n s.fidx.toNat) := by
  have hatt := stepSend_att hinv hp
  have hattempts := stepSend_attempts hinv hstats hp
  obtain ⟨-, hbefore⟩ := stepSend_phase s
  have hclosed {f : Nat} (hf : f < s.fidx.toNat) : countSend n s.fidx.toNat f = n f := countSend_other n (Nat.ne_of_lt hf)
  constructor
  · intro f hf
    rw [hclosed hf]
    exact h.closed f hf
  · rw [hatt, ← h.inFlight]
    exact countSend_same n _
  · intro f hf
    exact (countSend_other n (Nat.ne_of_gt hf)).trans (h.later f hf)
  · have hmap : (List.range s.fidx.toNat).map (countSend n s.fidx.toNat) = (List.range s.fidx.toNat).map n :=
      List.map_congr_left fun f hf => hclosed (List.mem_range.1 hf)
    rw [hattempts, h.total]
    show _ = ((List.range (s.fidx.toNat + 1)).map (countSend n s.fidx.toNat)).sum
    rw [List.sum_range_succ, List.sum_range_succ, hmap, countSend_same]
    rfl
  · intro f hf
    rw [hclosed hf]
    exact h.maxAtt f hf
  · have hmax := h.maxFrame
    show if s.fidx = 0#17 then _ else _
    split
    · rw [if_pos ‹_›] at hmax
      exact hmax
    · rw [if_neg ‹_›] at hmax
      obtain ⟨hlt, heq, hfirst⟩ := hmax
      refine ⟨hlt, (hclosed hlt).trans heq, fun f hf => ?_⟩
      rw [hclosed (hf.trans hlt)]
      exact hfirst f hf
  · obtain ⟨hcs, hctl⟩ := csAttempts_iff.1 h.csCorruptions
    refine csAttempts_iff.2 ⟨hcs.trans (le_countSend n _ _), fun heq => ?_⟩
    rw [hbefore]
    show s.stats.csCorrupt.toNat + 1 ≤ countSend n s.fidx.toNat s.ndata.toNat
    rw [show s.ndata = s.fidx from heq.symm] at hcs ⊢
    rw [countSend_same]
    exact Nat.succ_le_succ hcs

/-- The closed frames' maximum with the frame just closed among them, the earliest frame winning a tie (R251). -/
theorem endFrame_attemptsInv {s : State} {n : Nat → Nat} (h : s.AttemptsInv n) (hs : s.Attempting) :
    (endFrame s).AttemptsInv n := by
  have hfidx := endFrame_fidx hs
  have hin := h.inFlight
  have hpos := hs.attPos
  have hlater := h.later (s.fidx.toNat + 1) (Nat.lt_succ_self _)
  obtain ⟨-, hbefore⟩ := endFrame_phase s
  have hne : (endFrame s).fidx ≠ 0#17 := fun hzero => by rw [hzero] at hfidx; cases hfidx
  constructor
  · intro f hf
    rw [hfidx] at hf
    obtain hlt | rfl := Nat.lt_succ_iff_lt_or_eq.1 hf
    · exact h.closed f hlt
    · exact ⟨hin ▸ hpos, hin ▸ hs.attLe⟩
  · rw [hfidx, hlater]
    rfl
  · intro f hf
    rw [hfidx] at hf
    exact h.later f (Nat.lt_of_succ_lt hf)
  · rw [endFrame_stats_attempts, hfidx, List.sum_range_succ, hlater]
    exact h.total
  · intro f hf
    rw [hfidx] at hf
    obtain hlt | rfl := Nat.lt_succ_iff_lt_or_eq.1 hf
    · have := h.maxAtt f hlt
      obtain ⟨hexceeds, hatt, -⟩ | ⟨-, hatt, -⟩ := endFrame_max s <;> omega
    · obtain ⟨-, hatt, -⟩ | ⟨hwithin, hatt, -⟩ := endFrame_max s <;> omega
  · rw [if_neg hne, hfidx]
    obtain ⟨hexceeds, hatt, hframe⟩ | ⟨hwithin, hatt, hframe⟩ := endFrame_max s
    · rw [hatt, hframe]
      refine ⟨Nat.lt_succ_self _, hin, fun f hf => (h.maxAtt f hf).trans_lt hexceeds⟩
    · have hmax := h.maxFrame
      split at hmax
      · rw [hmax] at hwithin
        exact absurd hwithin (Nat.not_le.2 hpos)
      · obtain ⟨hlt, heq, hfirst⟩ := hmax
        rw [hatt, hframe]
        exact ⟨Nat.lt_succ_of_lt hlt, heq, hfirst⟩
  · obtain ⟨hcs, -⟩ := csAttempts_iff.1 h.csCorruptions
    rw [hbefore, ite_self, endFrame_stats_csCorrupt]
    exact hcs

theorem attemptFailed_attemptsInv {s : State} {n : Nat → Nat} (h : s.AttemptsInv n) (hs : s.Attempting) :
    (attemptFailed s).AttemptsInv n := by
  obtain hlt | hcap := Nat.lt_or_eq_of_le hs.attLe
  · rw [attemptFailed_of_lt hlt]
    exact h.withPhase (Nat.zero_le _)
  · rw [attemptFailed_of_cap hcap]
    exact endFrame_attemptsInv { h with } { hs with }

theorem stepCorr_attemptsInv {s : State} {n : Nat → Nat} (hinv : s.Inv) (h : s.AttemptsInv n) (hp : s.phase = .corr) :
    (stepCorr s).AttemptsInv n := by
  have hquiet : { s with phase := .recv }.AttemptsInv n := h.withPhase (Nat.zero_le _)
  obtain ⟨hdata, hcorrupt⟩ | ⟨hctl, hcorrupt⟩ | hclean := s.corrupted_cases
  · rw [stepCorr_of_data hdata hcorrupt]
    exact { hquiet with }
  · obtain ⟨-, hcs⟩ := csAttempts_iff.1 h.csCorruptions
    replace hcs := hcs (hinv.fidx_eq_ndata hp hctl)
    rw [hp] at hcs
    have hnext := (toNat_add_one_le s.stats.csCorrupt).trans hcs
    rw [stepCorr_of_control hctl hcorrupt]
    exact { hquiet with csCorruptions := csAttempts_iff.2 ⟨hnext, fun _ => hnext⟩ }
  · rw [stepCorr_of_clean hclean]
    exact { hquiet with }

/-- Only SEND makes an attempt. -/
theorem phaseStep_attemptsInv {s : State} {n : Nat → Nat} (hinv : s.Inv) (h : s.AttemptsInv n) (hsend : s.phase ≠ .send) :
    (phaseStep s).AttemptsInv n := by
  have quiet {p : Phase} (hbefore : p.beforeCorr ≤ s.phase.beforeCorr) := h.withPhase hbefore
  unfold phaseStep
  split <;> rename_i hp <;> rw [hp] at quiet
  · exact h
  · unfold stepBuild
    dsimp only
    split
    · exact { quiet (p := .cksum) (Nat.le_refl 0) with }
    · exact { quiet (p := .build) (Nat.le_refl 0) with }
  · have hcleared := quiet (p := .send) (Nat.le_refl 0)
    rw [hinv.cksum_keeps_counters hp] at hcleared
    exact { hcleared with }
  · exact absurd hp hsend
  · have hs := hinv.attempting_of_loss hp
    by_cases hlost : dataLost s.drawVal = true
    · rw [stepLoss_of_lost hlost]
      exact attemptFailed_attemptsInv { h with } { hs with }
    · rw [stepLoss_of_kept hlost]
      exact { quiet (p := .corr) (Nat.le_refl 1) with }
  · exact stepCorr_attemptsInv hinv h hp
  · exact { quiet (p := .ack) (Nat.le_refl 0) with }
  · have hs := hinv.attempting (.inr (.inr hp))
    by_cases hlost : ackLost s.drawVal = true
    · rw [stepAck_of_lost hlost]
      exact attemptFailed_attemptsInv { h with } { hs with }
    · rw [stepAck_of_received hlost]
      exact endFrame_attemptsInv { h with } { hs with }
  · exact { quiet (p := .finish) (Nat.le_refl 0) with }
  · exact { quiet (p := .idle) (Nat.le_refl 0) with }

/-- A command that is no accepted RUN leaves every counter. -/
theorem exec_attemptsInv {i : Instr} {s t : State} {n : Nat → Nat} (h : s.AttemptsInv n)
    (hrun : ¬ (i = .run ∧ s.busy = false ∧ s.err = false)) (ht : exec i s = .next t) : t.AttemptsInv n := by
  obtain rfl | ⟨c, rfl⟩ | ⟨-, rfl⟩ | ⟨hidle, hcmd⟩ := exec_next ht
  · exact h
  · exact { h with }
  · exact { h with }
  obtain ⟨-, rfl⟩ | ⟨-, -, -, rfl⟩ | ⟨-, -, rfl⟩ | ⟨-, -, rfl⟩ | ⟨-, -, rfl⟩ | ⟨hi, herr, -⟩ := hcmd
  · exact { h with }
  · exact { h with }
  · exact { h with }
  · exact { h with }
  · exact { h with }
  · exact absurd ⟨hi, hidle, herr⟩ hrun

/-- A step counts the attempt it makes, if its cause is SEND, and starts the count again if a RUN or reset does. -/
theorem step_attemptsInv {s t : State} {n : Nat → Nat} (hinv : s.Inv) (hstats : s.StatsInv) (h : s.AttemptsInv n)
    (ht : step s = .next t) : t.AttemptsInv (s.attemptsAfter n) := by
  have hu : { s with sched := s.sched.tail }.AttemptsInv n := { h with }
  have hkept {c : Cause} (hc : s.cause = c) (hsend : c ≠ .sequencer .send) (hstart : ¬ c.restarts s) :
      s.attemptsAfter n = n := attemptsAfter_of_other (hc ▸ hsend) (hc ▸ hstart) n
  obtain ⟨a, hc, rfl⟩ | ⟨i, hc, ht⟩ | ⟨hc, c, rfl⟩ | ⟨v, hc, ht⟩ | ⟨hc, rfl⟩ | ⟨hc, rfl⟩ | ⟨hc, rfl⟩ | ⟨d, hc, rfl⟩ :=
    step_by_cause ht
  · rw [hkept hc nofun (by simp)]
    exact { hu with }
  · by_cases hrun : i = .run ∧ s.busy = false ∧ s.err = false
    · obtain ⟨rfl, hidle, herr⟩ := hrun
      rw [attemptsAfter_of_restart (hc ▸ .inr ⟨rfl, hidle, herr⟩)]
      cases (exec_run_of_idle (s := { s with sched := s.sched.tail }) hidle herr).symm.trans ht
      exact (startRun_unsent _).attemptsInv
    · rw [hkept hc nofun (by simpa using hrun)]
      exact exec_attemptsInv hu hrun ht
  · rw [hkept hc nofun (by simp)]
    exact { hu with }
  · rw [hkept hc nofun (by simp)]
    obtain ⟨c, rfl⟩ | ⟨-, -, rfl⟩ := drawWrite_next ht
    · exact { hu with }
    · exact { hu with }
  · rw [hkept hc nofun (by simp)]
    exact hu
  · rw [hkept hc nofun (by simp)]
    exact hu
  · by_cases hsend : s.phase = .send
    · rw [hsend] at hc
      rw [attemptsAfter_of_send hc, phaseStep_send (s := { s with sched := s.sched.tail }) hsend]
      exact stepSend_attemptsInv (withSched_inv hinv _) { hstats with } hu hsend
    · rw [hkept hc (by simpa using hsend) (by simp)]
      exact phaseStep_attemptsInv (withSched_inv hinv _) hu hsend
  · rw [attemptsAfter_of_restart (hc ▸ .inl rfl)]
    exact (resetBlock_unsent d _).attemptsInv

/-! The laws at the end of a run (R254) -/

theorem State.Inv.idle_of_done {s : State} (h : s.Inv) (hdone : s.done = true) : s.phase = .idle := by
  by_contra hne
  exact Bool.false_ne_true ((h.not_done (State.busy_eq_true.2 hne)).symm.trans hdone)

/-- The balance with every frame closed and nothing in flight. -/
theorem State.StatsInv.at_end {s : State} (h : s.StatsInv) (hinv : s.Inv) (hdone : s.done = true) :
    s.fidx.toNat ≤ s.stats.attempts.toNat ∧ s.stats.attempts.toNat ≤ 100 * s.fidx.toNat ∧
      s.stats.lost.toNat + s.stats.ackLost.toNat + s.fidx.toNat = s.stats.attempts.toNat + s.stats.abandoned.toNat ∧
      s.stats.corrupt.toNat + s.stats.csCorrupt.toNat + s.stats.lost.toNat ≤ s.stats.attempts.toNat := by
  obtain ⟨-, hatt⟩ := h.ended hdone
  have hlow := h.attemptsLow
  have hhigh := h.attemptsHigh
  have hlosses := h.losses
  have hcorruptions := h.corruptions
  rw [hinv.idle_of_done hdone] at hlosses hcorruptions
  rw [hatt] at hlow hhigh
  exact ⟨hlow, hhigh, hlosses, hcorruptions⟩

/-- Settles O51: the two step lemmas, and the balance read off where every frame is closed and nothing is in flight. -/
theorem stepKeepsStatisticsBalance : Obligations.StepKeepsStatisticsBalance := by
  refine ⟨fun s t => step_statsInv, fun s t n => step_attemptsInv, fun s n hinv h hn hdone => ?_⟩
  obtain ⟨hfidx, hatt⟩ := h.ended hdone
  obtain ⟨hlow, hhigh, hlosses, hcorruptions⟩ := h.at_end hinv hdone
  have hfits := ndata_le hinv.storage
  have hframes : s.stats.frames.toNat = s.fidx.toNat := (h.frames (.inr hdone)).trans hfidx.symm
  have htotal := hn.total
  rw [List.sum_range_succ, hn.inFlight, hatt] at htotal
  have hmax := hn.maxFrame
  rw [if_neg (fun hzero => by rw [hzero] at hfidx; cases hfidx)] at hmax
  obtain ⟨hmaxLt, hmaxEq, hfirst⟩ := hmax
  obtain ⟨hcs, -⟩ := csAttempts_iff.1 hn.csCorruptions
  have hgiven := h.abandoned
  have hmaxLe := h.maxAtt
  dsimp only
  rw [hframes]
  refine ⟨hfidx, ⟨htotal, hn.closed, hlow, hhigh⟩, ⟨hmaxLe, hn.maxAtt, hmaxLt, hmaxEq, hfirst⟩, ⟨hgiven, ?_⟩, ⟨?_, hcs⟩, ?_,
    h.capHit⟩ <;> omega

end Sys2Proof.Machine
end

section
/-! SUPPORT. A run's progress and its end: the bound on the steps left, what the sequencer waits for, and what the FINISH step
leaves (R233, R261 to R263, R351). -/

namespace Sys2Proof.Machine

/-! The steps left of the frame in flight and the frames after it (R263) -/

/-- The bound with `steps` steps of the attempt in flight to come, for a state between SEND and the end of a frame. -/
def State.frameStepsLeft (s : State) (steps : Nat) : Nat :=
  if s.fidx.toNat < s.ndata.toNat then
    5 * (100 - s.att.toNat) + steps + 500 * (s.ndata.toNat - s.fidx.toNat - 1) + 400 + 2
  else 4 * (100 - s.att.toNat) + steps + 2

/-- The steps of an attempt that a phase has still to take, with its own. -/
def Phase.attemptSteps : Phase → Nat
  | .loss => 4
  | .corr => 3
  | .recv => 2
  | .ack => 1
  | .idle | .build | .cksum | .send | .summary | .finish => 0

theorem stepsLeft_of_delivery {s : State} (hp : s.phase = .send ∨ s.phase.inFlight = 1) :
    s.stepsLeft = s.frameStepsLeft s.phase.attemptSteps := by
  unfold State.stepsLeft
  cases h : s.phase <;> simp [h, Phase.inFlight] at hp <;> rfl

theorem frameStepsLeft_mono {s : State} {j k : Nat} (h : j < k) : s.frameStepsLeft j < s.frameStepsLeft k := by
  unfold State.frameStepsLeft
  split <;> omega

theorem endFrame_phase_eq {s : State} (hs : s.Attempting) :
    (endFrame s).phase = if s.fidx.toNat < s.ndata.toNat then .send else .summary := by
  rw [endFrame_eq (BitVec.le_def.2 hs.fidxLe) hs.ndataFits]
  rfl

/-- A closed frame has used up its share of the bound. -/
theorem endFrame_stepsLeft {s : State} (hs : s.Attempting) {k : Nat} (hk : 0 < k) :
    (endFrame s).stepsLeft < s.frameStepsLeft k := by
  have hfidx := endFrame_fidx hs
  have hphase := endFrame_phase_eq hs
  unfold State.frameStepsLeft
  split
  · rw [if_pos ‹_›] at hphase
    rw [stepsLeft_of_delivery (.inl hphase), hphase, State.frameStepsLeft, hfidx, endFrame_att, endFrame_ndata]
    simp only [Phase.attemptSteps, BitVec.toNat_zero]
    split <;> omega
  · rw [if_neg ‹_›] at hphase
    simp only [State.stepsLeft, hphase]
    omega

theorem attemptFailed_stepsLeft {s : State} (hs : s.Attempting) {k : Nat} (hk : 0 < k) :
    (attemptFailed s).stepsLeft < s.frameStepsLeft k := by
  obtain hlt | hcap := Nat.lt_or_eq_of_le hs.attLe
  · rw [attemptFailed_of_lt hlt]
    exact frameStepsLeft_mono (s := s) hk
  · rw [attemptFailed_of_cap hcap]
    exact endFrame_stepsLeft { hs with } hk

/-! The steps (R234 to R240, R260, R261) -/

theorem stepBuild_stepsLeft {s : State} (hinv : s.Inv) (hp : s.phase = .build) : (stepBuild s).stepsLeft < s.stepsLeft := by
  obtain ⟨hlt, -, -⟩ := (controlInv_build hp).1 hinv.control
  have hn := ndata_le hinv.storage
  have hnext : (stepBuild s).nframes.toNat = s.nframes.toNat + 1 := toNat_add_one (by omega)
  have hndata : (stepBuild s).ndata = s.ndata := rfl
  have hphase : (stepBuild s).phase = .cksum ∨ (stepBuild s).phase = .build := by
    unfold stepBuild
    exact ite_eq_or_eq _ _ _
  obtain hphase | hphase := hphase <;> simp only [State.stepsLeft, hp, hphase, hnext, hndata] <;> omega

theorem stepCksum_stepsLeft {s : State} (hp : s.phase = .cksum) : (stepCksum s).stepsLeft < s.stepsLeft := by
  rw [stepsLeft_of_delivery (s := stepCksum s) (.inl rfl)]
  simp only [State.stepsLeft, hp]
  show (if 0 < s.ndata.toNat then 5 * 100 + 0 + 500 * (s.ndata.toNat - 0 - 1) + 400 + 2 else 4 * 100 + 0 + 2) < _
  split <;> omega

/-- SEND takes one of the frame's attempts, and the attempt's steps are one fewer than the bound has for it. -/
theorem stepSend_stepsLeft {s : State} (hinv : s.Inv) (hp : s.phase = .send) : (stepSend s).stepsLeft < s.stepsLeft := by
  obtain ⟨-, -, hatt⟩ := hinv.sending hp
  have hnext := stepSend_att hinv hp
  have hphase : (stepSend s).phase = if s.fidx.toNat < s.ndata.toNat then .loss else .corr := rfl
  rw [stepsLeft_of_delivery (s := stepSend s) (.inr (stepSend_phase s).1), stepsLeft_of_delivery (.inl hp), hp, hphase]
  have hfidx : (stepSend s).fidx = s.fidx := rfl
  have hndata : (stepSend s).ndata = s.ndata := rfl
  unfold State.frameStepsLeft
  rw [hnext, hfidx, hndata]
  split <;> simp only [Phase.attemptSteps] <;> omega

theorem phaseStep_stepsLeft {s : State} (hinv : s.Inv) (hbusy : s.busy = true) : (phaseStep s).stepsLeft < s.stepsLeft := by
  have hdelivery (hin : s.phase.inFlight = 1) := stepsLeft_of_delivery (.inr hin)
  unfold phaseStep
  split <;> rename_i hp
  · exact absurd hp (State.busy_eq_true.1 hbusy)
  · exact stepBuild_stepsLeft hinv hp
  · exact stepCksum_stepsLeft hp
  · exact stepSend_stepsLeft hinv hp
  · have hs := hinv.attempting_of_loss hp
    rw [hp] at hdelivery
    rw [hdelivery rfl]
    by_cases hlost : dataLost s.drawVal = true
    · rw [stepLoss_of_lost hlost]
      refine attemptFailed_stepsLeft ?_ (k := 4) (by decide)
      exact { hs with }
    · rw [stepLoss_of_kept hlost]
      exact frameStepsLeft_mono (s := s) (by decide : 3 < 4)
  · obtain ⟨_, _, _, ht⟩ := exists_stepCorr_eq s
    rw [hp] at hdelivery
    rw [hdelivery rfl, ht]
    exact frameStepsLeft_mono (s := s) (Nat.lt_succ_self 2)
  · rw [hp] at hdelivery
    rw [hdelivery rfl]
    exact frameStepsLeft_mono (s := s) Nat.one_lt_two
  · have hs := hinv.attempting (.inr (.inr hp))
    rw [hp] at hdelivery
    rw [hdelivery rfl]
    by_cases hlost : ackLost s.drawVal = true
    · rw [stepAck_of_lost hlost]
      refine attemptFailed_stepsLeft ?_ (k := 1) (by decide)
      exact { hs with }
    · rw [stepAck_of_received hlost]
      refine endFrame_stepsLeft ?_ (k := 1) (by decide)
      exact { hs with }
  · simp only [State.stepsLeft, hp]
    exact Nat.lt_succ_self 1
  · simp only [State.stepsLeft, hp]
    exact Nat.lt_succ_self 0

/-! RUN (R230) -/

theorem startRun_busy (s : State) : (startRun s).busy = true := by
  obtain hp | hp := startRun_phase_cases s <;> exact busy_of_phase hp nofun

theorem startRun_stepsLeft (s : State) :
    (startRun s).stepsLeft ≤ (startRun s).ndata.toNat + 1 + 500 * (startRun s).ndata.toNat + 400 + 2 := by
  have hnframes : (startRun s).nframes.toNat = 0 := rfl
  obtain hp | hp := startRun_phase_cases s <;> simp only [State.stepsLeft, hp, hnframes] <;> omega

/-! The host during a run (R350, R351) -/

/-- While a run is in progress a CMD write depends on its word only, and reaches no further than the error latch. -/
theorem commandWrite_while_busy (v : Word) :
    (∀ s, s.busy = true → commandWrite v s = .next s) ∨
      (∃ c, ∀ s, s.busy = true → commandWrite v s = .next (raiseError c s)) ∨
      ∀ s, s.busy = true → commandWrite v s = .next (clearError s) := by
  cases hd : decode v with
  | error e =>
    refine .inr (.inl ⟨if !acceptedWhileBusy (opcField v) then .busy else errorCauseOf e, fun s hbusy => ?_⟩)
    rw [commandWrite, hd]
    exact (illegalCommand_eq v e s).trans (by rw [hbusy]; rfl)
  | ok i =>
    by_cases hnop : i = .nop
    · subst hnop
      exact .inl fun s _ => commandWrite_of_decode hd s
    by_cases hclr : i = .clrErr
    · subst hclr
      exact .inr (.inr fun s _ => commandWrite_of_decode hd s)
    exact .inr (.inl ⟨.busy, fun s hbusy => (commandWrite_of_decode hd s).trans (exec_of_busy hbusy hnop hclr)⟩)

theorem hostAccess_stepsLeft {s t : State} {acc : Access} (hbusy : s.busy = true) (ht : hostAccess acc s = .next t) :
    t.stepsLeft = s.stepsLeft := by
  cases acc with
  | read a => cases ht; rfl
  | write a v =>
    obtain ⟨-, ht⟩ | ⟨-, ht⟩ | ⟨-, -, rfl⟩ := busWrite_next ht
    · obtain h | ⟨c, h⟩ | h := commandWrite_while_busy v <;> cases (h s hbusy).symm.trans ht <;> rfl
    · obtain ⟨c, rfl⟩ | ⟨-, -, rfl⟩ := drawWrite_next ht <;> rfl
    · rfl

/-! What the sequencer waits for (R233, R351) -/

theorem State.not_enabled {s : State} (hbusy : s.busy = true) (h : s.enabled = false) :
    s.evtStall = true ∨ s.drawWait = true := by
  rw [State.evtStall, State.drawWait, hbusy]
  rw [State.enabled, hbusy] at h
  cases hroom : s.noRoom with
  | true => exact .inl rfl
  | false =>
    rw [hroom] at h
    exact .inr (by simpa using h)

theorem Phase.need_le (p : Phase) : p.need ≤ 9 := by cases p <;> decide

/-- Settles O52: the bound per phase, RUN, the host's accesses, and the two reasons to wait. -/
theorem runMakesProgress : Obligations.RunMakesProgress := by
  refine ⟨fun s hinv hen => ?_, fun s t _ hidle herr ht => ?_, fun s t acc rest hbusy hsched ht => ?_,
    fun s => State.not_enabled, fun s hinv hbusy hempty hfull => ?_⟩
  · rw [sequencerStep_of_enabled hen]
    exact phaseStep_stepsLeft hinv (State.busy_eq_true.2 (State.enabled_iff.1 hen).1)
  · cases (exec_run_of_idle hidle herr).symm.trans ht
    exact ⟨startRun_busy s, startRun_stepsLeft s⟩
  · rw [step_of_sched hsched] at ht
    exact hostAccess_stepsLeft (s := { s with sched := rest }) hbusy ht
  · obtain ⟨-, -, hdepth, -⟩ := hinv.storage.cfgLegal
    refine State.enabled_iff.2 ⟨State.busy_eq_true.1 hbusy, ?_, fun _ => hfull⟩
    rw [hempty, List.length_nil, Nat.zero_add]
    exact s.phase.need_le.trans hdepth

/-! The end of a run (R261, R262) -/

/-- Settles O53: FINISH leaves what the run has built, which is the source's. -/
theorem endOfRun : Obligations.EndOfRun := by
  intro s hinv hframes hp hen t n
  have hbusy : s.busy = true := busy_of_phase hp nofun
  have hfits := ndata_le hinv.storage
  obtain ⟨hstored, -, -⟩ := (controlInv_closed (.inr hp)).1 hinv.control
  have hbuilt : s.built = n := Nat.min_eq_right (hstored ▸ Nat.le_succ _)
  obtain ⟨hcontrol, hsum⟩ := hframes.control hbusy hstored
  have hcrc := hframes.lastCrc hbusy
  rw [hbuilt] at hcrc
  have ht : t = stepFinish s := (sequencerStep_of_enabled hen).trans (phaseStep_finish hp)
  clear_value t
  subst ht
  have hload {k : BitVec 16} {f : Bits} (hk : k.toNat ≤ n) (hread : s.ftab.read k.toNat = some f) :
      exec (.frameLoad k) (stepFinish s) = .next { stepFinish s with w := f } := by
    have hlt : k.toNat < s.nframes.toNat := by omega
    rw [exec_frameLoad_of_stored (s := stepFinish s) rfl hlt]
    exact congrArg (fun f => Host.Outcome.next { stepFinish s with w := f }) (frameAt_of_read (s := stepFinish s) hread)
  refine ⟨rfl, rfl, rfl, hstored, rfl, (hinv.run hbusy).1, rfl, fun i hi => ?_, ?_, hsum, hcrc⟩
  · rw [hload (Nat.le_of_lt hi) (hframes.frames hbusy _ (hbuilt ▸ hi)), sourceFrame, BitVec.ofNat_toNat]
    rfl
  · have hk : (BitVec.ofNat 16 n).toNat = n := Nat.mod_eq_of_lt (by omega)
    rw [hload (Nat.le_of_eq hk) ((congrArg s.ftab.read hk).trans hcontrol), sourceControlFrame, cksResult_eq]

end Sys2Proof.Machine
end

section
/-! SUPPORT. The host and the sequencer: what a step leaves to the host, and that an enabled step commutes with the host's
accesses (R64, R231). -/

namespace Sys2Proof.Machine

/-! The fields that a read and a CMD write change during a run -/

/-- `s` with other contents of the FIFO, another word last returned, and another error latch. -/
def State.withPort (s : State) (q : List Word) (r : Word) (e : Bool) (c : BitVec 4) : State :=
  { s with evq := q, rdata := r, err := e, errcode := c }

/-- In `s`, `f` does nothing to the port's fields but append words to the FIFO, and these fields play no part in what it
does. -/
def AppendsAt (f : State → State) (s : State) : Prop :=
  ∃ ws, ∀ q r e c, f (s.withPort q r e c) = (f s).withPort (q ++ ws) r e c

theorem attemptFailed_withPort (s : State) (q : List Word) (r : Word) (e : Bool) (c : BitVec 4) :
    attemptFailed (s.withPort q r e c) = (attemptFailed s).withPort q r e c := by
  show (if s.att < retryCap then _ else _) = _
  unfold attemptFailed
  split <;> rfl

theorem stepLoss_appendsAt (s : State) : AppendsAt stepLoss s := by
  by_cases hlost : dataLost s.drawVal = true
  · refine ⟨delivery .lost s, fun q r e c => ?_⟩
    rw [stepLoss_of_lost hlost, stepLoss_of_lost (s := s.withPort q r e c) hlost, ← attemptFailed_withPort]
    rfl
  · refine ⟨[], fun q r e c => ?_⟩
    rw [stepLoss_of_kept hlost, stepLoss_of_kept (s := s.withPort q r e c) hlost, List.append_nil]
    rfl

theorem stepCorr_appendsAt (s : State) : AppendsAt stepCorr s := by
  obtain ⟨hdata, hcorrupt⟩ | ⟨hctl, hcorrupt⟩ | hclean := s.corrupted_cases
  · refine ⟨delivery .corrupted s, fun q r e c => ?_⟩
    rw [stepCorr_of_data hdata hcorrupt, stepCorr_of_data (s := s.withPort q r e c) hdata hcorrupt]
    rfl
  · refine ⟨delivery .corrupted s, fun q r e c => ?_⟩
    rw [stepCorr_of_control hctl hcorrupt, stepCorr_of_control (s := s.withPort q r e c) hctl hcorrupt]
    rfl
  · refine ⟨[], fun q r e c => ?_⟩
    rw [stepCorr_of_clean hclean, stepCorr_of_clean (s := s.withPort q r e c) hclean, List.append_nil]
    rfl

theorem stepAck_appendsAt (s : State) : AppendsAt stepAck s := by
  by_cases hlost : ackLost s.drawVal = true
  · refine ⟨delivery .ackLost s, fun q r e c => ?_⟩
    rw [stepAck_of_lost hlost, stepAck_of_lost (s := s.withPort q r e c) hlost, ← attemptFailed_withPort]
    rfl
  · refine ⟨delivery .ackReceived s, fun q r e c => ?_⟩
    rw [stepAck_of_received hlost, stepAck_of_received (s := s.withPort q r e c) hlost]
    rfl

theorem phaseStep_appendsAt (s : State) : AppendsAt phaseStep s := by
  have hphase (q r e c) : (s.withPort q r e c).phase = s.phase := rfl
  unfold AppendsAt phaseStep
  simp only [hphase]
  split
  · exact ⟨[], fun q r e c => by rw [List.append_nil]⟩
  · exact ⟨frameCrcEvent s.nframes (crc16 (payload s.bitbuf s.nframes.toNat)), fun _ _ _ _ => rfl⟩
  · exact ⟨checksumEvent (cksSum (cksInput s)), fun _ _ _ _ => rfl⟩
  · exact ⟨delivery .sent { s with att := s.att + 1#7 }, fun _ _ _ _ => rfl⟩
  · exact stepLoss_appendsAt s
  · exact stepCorr_appendsAt s
  · exact ⟨delivery .received s, fun _ _ _ _ => rfl⟩
  · exact stepAck_appendsAt s
  · exact ⟨summaryEvent s.stats, fun _ _ _ _ => rfl⟩
  · exact ⟨finishedEvent, fun _ _ _ _ => rfl⟩

/-- Whatever the port's fields hold, the step is the same but for them. -/
theorem exists_phaseStep_withPort (s : State) :
    ∃ ws, (phaseStep s).evq = s.evq ++ ws ∧
      ∀ q r e c, phaseStep (s.withPort q r e c) = (phaseStep s).withPort (q ++ ws) r e c := by
  obtain ⟨ws, hport⟩ := phaseStep_appendsAt s
  exact ⟨ws, congrArg State.evq (hport s.evq s.rdata s.err s.errcode), hport⟩

/-! The accesses -/

/-- Taking the oldest word of a FIFO that has one does not show what is appended behind it. -/
theorem phaseStep_pop {s : State} (h : s.evq ≠ []) :
    phaseStep (busRead Reg.evtData.addr s) = busRead Reg.evtData.addr (phaseStep s) := by
  obtain ⟨ws, hevq, hport⟩ := exists_phaseStep_withPort s
  obtain ⟨-, -, -, -, herr, hcode, -⟩ := phaseStep_keeps s
  obtain ⟨w, q, hq⟩ := List.exists_cons_of_ne_nil h
  rw [busRead_evtData, busRead_evtData, hevq, hq]
  refine (hport q w s.err s.errcode).trans ?_
  rw [← herr, ← hcode]
  rfl

theorem phaseStep_clearError (s : State) : phaseStep (clearError s) = clearError (phaseStep s) := by
  obtain ⟨ws, hevq, hport⟩ := exists_phaseStep_withPort s
  obtain ⟨-, -, -, -, -, -, -, hrdata, -⟩ := phaseStep_keeps s
  refine (hport s.evq s.rdata false 0).trans ?_
  rw [← hevq, ← hrdata]
  rfl

theorem phaseStep_raiseError (c : ErrorCause) (s : State) : phaseStep (raiseError c s) = raiseError c (phaseStep s) := by
  obtain ⟨ws, hevq, hport⟩ := exists_phaseStep_withPort s
  obtain ⟨-, -, -, -, herr, hcode, -, hrdata, -⟩ := phaseStep_keeps s
  refine (hport s.evq s.rdata true (if s.err then s.errcode else c.code)).trans ?_
  rw [← hevq, ← hrdata, ← herr, ← hcode]
  rfl

/-- A step that consumes no draw leaves the slot as the host fills it. -/
theorem phaseStep_fillSlot {s : State} (h : s.phase.drawing = false) (d : BitVec 7) :
    phaseStep { s with drawVal := d, drawFull := true } = { phaseStep s with drawVal := d, drawFull := true } := by
  cases hp : s.phase with
  | loss | corr | ack => rw [hp] at h; cases h
  | _ => simp only [phaseStep, hp] <;> rfl

/-! What an enabled step leaves of the enabling rule and of the run -/

theorem enabled_busRead {s : State} (a : PortAddr) (h : s.enabled = true) : (busRead a s).enabled = true := by
  obtain ⟨hp, room, hdraw⟩ := State.enabled_iff.1 h
  refine State.enabled_iff.2 ⟨hp, ?_, hdraw⟩
  rw [busRead_evq, busRead_phase, busRead_cfg]
  split
  · rw [List.length_tail]
    omega
  · exact room

theorem endFrame_busy (s : State) : (endFrame s).busy = true := by
  have hphase : (endFrame s).phase = if s.fidx + 1#17 ≤ s.ndata then .send else .summary := rfl
  rw [State.busy_eq_true, hphase]
  split <;> nofun

theorem attemptFailed_busy (s : State) : (attemptFailed s).busy = true := by
  unfold attemptFailed
  split
  · rfl
  · exact endFrame_busy _

/-- Only FINISH ends the run (R261). -/
theorem phaseStep_busy {s : State} (hbusy : s.busy = true) (hfinish : s.phase ≠ .finish) : (phaseStep s).busy = true := by
  unfold phaseStep
  split <;> rename_i hp
  · exact hbusy
  · rw [State.busy_eq_true, stepBuild]
    dsimp only [push_phase]
    split <;> nofun
  · rfl
  · rw [State.busy_eq_true, stepSend]
    dsimp only [push_phase]
    split <;> nofun
  · by_cases hlost : dataLost s.drawVal = true
    · rw [stepLoss_of_lost hlost]
      exact attemptFailed_busy _
    · rw [stepLoss_of_kept hlost]
      rfl
  · obtain ⟨_, _, _, ht⟩ := exists_stepCorr_eq s
    rw [ht]
    rfl
  · rfl
  · by_cases hlost : ackLost s.drawVal = true
    · rw [stepAck_of_lost hlost]
      exact attemptFailed_busy _
    · rw [stepAck_of_received hlost]
      exact endFrame_busy _
  · rfl
  · exact absurd hp hfinish

/-- Settles O54: each access changes only what the step passes on as it is, and the step stays enabled. -/
theorem hostAndSequencerCommute : Obligations.HostAndSequencerCommute := by
  intro s hen
  have hstep := sequencerStep_of_enabled hen
  obtain ⟨hp, room, hdraw⟩ := State.enabled_iff.1 hen
  refine ⟨fun hne => ?_, fun v u hempty hu => ?_, fun v u hfinish hu => ?_⟩
  · rw [hstep]
    exact (sequencerStep_of_enabled (enabled_busRead _ hen)).trans (phaseStep_pop hne)
  · have hquiet : s.phase.drawing = false := by
      cases h : s.phase.drawing with
      | false => rfl
      | true => exact (hdraw h).symm.trans hempty
    have hkept : (phaseStep s).drawFull = false := by
      rw [Phase.drawing_eq, decide_eq_false_iff_not] at hquiet
      exact ((phaseStep_keeps_drawFull_or_draws s).resolve_right hquiet).trans hempty
    rw [hstep]
    obtain hrange | hrange := Nat.lt_or_ge (v.toNat % 256) 100
    · cases (drawWrite_of_empty hrange hempty).symm.trans hu
      rw [drawWrite_of_empty hrange hkept, ← phaseStep_fillSlot hquiet]
      have hfull : { s with drawVal := BitVec.ofNat 7 (v.toNat % 256), drawFull := true }.enabled = true :=
        State.enabled_iff.2 ⟨hp, room, fun _ => rfl⟩
      rw [sequencerStep_of_enabled hfull]
    · cases (drawWrite_of_range hrange s).symm.trans hu
      rw [drawWrite_of_range hrange, ← phaseStep_raiseError, sequencerStep_of_enabled (s := raiseError _ s) hen]
  · have hbusy := State.busy_eq_true.2 hp
    have hbusy' := phaseStep_busy hbusy hfinish
    rw [hstep]
    obtain h | ⟨c, h⟩ | h := commandWrite_while_busy v <;> cases (h s hbusy).symm.trans hu <;> rw [h _ hbusy']
    · rw [hstep]
    · rw [← phaseStep_raiseError, sequencerStep_of_enabled (s := raiseError c s) hen]
    · rw [← phaseStep_clearError, sequencerStep_of_enabled (s := clearError s) hen]

end Sys2Proof.Machine
end

section
/-! SUPPORT. NOP and CLR_ERR: commands at any time, and their words with an operand bit set (R290, R291). -/

namespace Sys2Proof.Machine

theorem decode_of_reservedSet {v : Word} (h : ReservedSet (v.toNat / 2 ^ 24) (v.toNat % 2 ^ 24)) :
    decode v = .error .badArg := by
  rw [← toNat_opcField, ← toNat_opndField] at h
  obtain ⟨o, ho⟩ := opcodeOf_isSome_of_reservedSet h
  have hcode : opcField v = o.code := (opcodeOf_eq_some_iff.1 ho).symm
  exact decode_of_reserved ho ((reservedSet_code_iff o _).1 (hcode ▸ h))

/-- The opcodes up to 0x01 are the two that a run in progress does not refuse (R81, R83). -/
theorem opcField_mem_of_le_one {v : Word} (h : v.toNat / 2 ^ 24 ≤ 1) : opcField v ∈ [0x00#8, 0x01#8] := by
  rw [← toNat_opcField] at h
  obtain h0 | h1 := Nat.le_one_iff_eq_zero_or_eq_one.1 h
  · exact List.mem_cons.2 (.inl (BitVec.eq_of_toNat_eq h0))
  · exact List.mem_cons.2 (.inr (List.mem_singleton.2 (BitVec.eq_of_toNat_eq h1)))

theorem reservedSet_of_le_one {opc opnd : Nat} (hopc : opc ≤ 1) (hopnd : opnd ≠ 0) : ReservedSet opc opnd := by
  refine .inl ⟨?_, hopnd⟩
  obtain rfl | rfl := Nat.le_one_iff_eq_zero_or_eq_one.1 hopc <;> decide

/-- Settles O16: neither command has a guard, and a word of either opcode with an operand bit set passes the BUSY check and fails
the decoder's last one. -/
theorem controlCommands : Obligations.ControlCommands := by
  refine ⟨by decide, by decide, fun s => ⟨rfl, rfl⟩, fun v s hopc hopnd => ?_⟩
  have hdecode : decode v = .error .badArg := decode_of_reservedSet (reservedSet_of_le_one hopc hopnd)
  exact commandWrite_of_decode_error hdecode fun _ => opcField_mem_of_le_one hopc

end Sys2Proof.Machine
end

section
/-! SUPPORT. The error latch: which commands look at it, and the step that sets it (R300, R302). -/

namespace Sys2Proof.Machine

/-! The commands on two states that differ in what they do not look at -/

/-- `s` with another error latch, another argument of the free values and another value in the draw slot: what no command but RUN
and CLR_ERR looks at, apart from FRAME_LOAD of a slot that nothing has written. -/
def State.withUnseen (s : State) (e : Bool) (c : BitVec 4) (r : Nat) (d : BitVec 7) : State :=
  { s with err := e, errcode := c, resets := r, drawVal := d }

/-- The outcome of a command on `s` and its outcome on `u` are the same: both raise one error, or both write the same values to the
units' registers. -/
inductive SameEffect (s u : State) : Result → Result → Prop
  | raises (k : ErrorCause) : SameEffect s u (raised k s) (raised k u)
  | writes (bitbuf w : Bits) (crc : BitVec 16) (sum : BitVec 8) :
    SameEffect s u (.next { s with bitbuf := bitbuf, w := w, crc := crc, sum := sum })
      (.next { u with bitbuf := bitbuf, w := w, crc := crc, sum := sum })

theorem SameEffect.ite {s u : State} {p : Prop} [Decidable p] {a b a' b' : Result} (ha : p → SameEffect s u a a')
    (hb : ¬ p → SameEffect s u b b') : SameEffect s u (if p then a else b) (if p then a' else b') := by
  split
  · exact ha ‹_›
  · exact hb ‹_›

theorem SameEffect.whenIdle {s u : State} {a a' : Result} (hbusy : u.busy = s.busy) (h : SameEffect s u a a') :
    SameEffect s u (whenIdle s a) (whenIdle u a') := by
  unfold Machine.whenIdle
  rw [hbusy]
  exact .ite (fun _ => .raises _) fun _ => h

theorem SameEffect.total {s u : State} {a a' : Result} (h : SameEffect s u a a') : ∃ t, a = .next t := by
  cases h with
  | raises k => exact ⟨_, rfl⟩
  | writes => exact ⟨_, rfl⟩

/-- Every command but RUN and CLR_ERR has the same effect, provided that the stored frames are the same. -/
theorem exec_sameEffect {i : Instr} (s : State) {e : Bool} {c : BitVec 4} {r : Nat} {d : BitVec 7} (hrun : i ≠ .run)
    (hclr : i ≠ .clrErr) (hframe : ∀ k < s.nframes.toNat, (s.withUnseen e c r d).frameAt k = s.frameAt k) :
    SameEffect s (s.withUnseen e c r d) (exec i s) (exec i (s.withUnseen e c r d)) := by
  cases i with
  | run => exact absurd rfl hrun
  | clrErr => exact absurd rfl hclr
  | nop => exact .writes s.bitbuf s.w s.crc s.sum
  | srcClear => exact .whenIdle rfl (.writes [] s.w s.crc s.sum)
  | loadb b => exact .whenIdle rfl (.ite (fun _ => .raises _) fun _ => .writes _ s.w s.crc s.sum)
  | crcInit | crcBit b | crcByte b => exact .whenIdle rfl (.writes s.bitbuf s.w _ s.sum)
  | cksInit | cksAdd b => exact .whenIdle rfl (.writes s.bitbuf s.w s.crc _)
  | wClear => exact .whenIdle rfl (.writes s.bitbuf [] s.crc s.sum)
  | wAppend n v => exact .whenIdle rfl (.ite (fun _ => .raises _) fun _ => .writes s.bitbuf _ s.crc s.sum)
  | stuff =>
    exact .whenIdle rfl (.ite (fun _ => .raises _) fun _ =>
      .ite (fun _ => .raises _) fun _ => .writes s.bitbuf _ s.crc s.sum)
  | unstuff =>
    refine .whenIdle rfl (.ite (fun _ => .raises _) fun _ => ?_)
    rw [show (s.withUnseen e c r d).w = s.w from rfl]
    cases unstuffFrame s.w with
    | ok x => exact .writes s.bitbuf x s.crc s.sum
    | error v => exact .raises v.cause
  | frameLoad k =>
    refine .whenIdle rfl (.ite (fun _ => .raises _) fun hk => ?_)
    rw [hframe _ (Nat.not_le.1 hk)]
    exact .writes s.bitbuf (s.frameAt k.toNat) s.crc s.sum

/-- With the same free values the stored frames are the same. -/
theorem exec_sameEffect_latch {i : Instr} (s : State) (e : Bool) (c : BitVec 4) (hrun : i ≠ .run) (hclr : i ≠ .clrErr) :
    SameEffect s { s with err := e, errcode := c } (exec i s) (exec i { s with err := e, errcode := c }) :=
  exec_sameEffect (r := s.resets) (d := s.drawVal) s hrun hclr fun _ _ => rfl

/-- A command that raises nothing does the same whatever has been latched before. -/
theorem exec_withLatch {i : Instr} {s t : State} (e : Bool) (c : BitVec 4) (hrun : i ≠ .run) (hclr : i ≠ .clrErr)
    (ht : exec i s = .next t) (hok : t.err = false) :
    exec i { s with err := e, errcode := c } = .next { t with err := e, errcode := c } := by
  have heffect := exec_sameEffect_latch s e c hrun hclr
  rw [ht] at heffect
  generalize exec i { s with err := e, errcode := c } = result at heffect
  cases heffect with
  | raises k => exact absurd hok.symm Bool.false_ne_true
  | writes => rfl

/-- A RUN that finds an error latched is refused with no new code (R230). -/
theorem exec_run_of_err {s : State} (hidle : s.busy = false) (herr : s.err = true) : exec .run s = .next s :=
  (whenIdle_of_idle hidle _).trans (if_pos herr)

/-! The sequencer neither reads nor writes the latch -/

theorem phaseStep_withLatch (s : State) (e : Bool) (c : BitVec 4) :
    phaseStep { s with err := e, errcode := c } = { phaseStep s with err := e, errcode := c } := by
  obtain ⟨ws, hevq, hport⟩ := exists_phaseStep_withPort s
  obtain ⟨-, -, -, -, -, -, -, hrdata, -⟩ := phaseStep_keeps s
  refine (hport s.evq s.rdata e c).trans ?_
  rw [← hevq, ← hrdata]
  rfl

theorem sequencerStep_withLatch (s : State) (e : Bool) (c : BitVec 4) :
    sequencerStep { s with err := e, errcode := c } = { sequencerStep s with err := e, errcode := c } := by
  cases hen : s.enabled with
  | false => rw [sequencerStep_of_not_enabled hen, sequencerStep_of_not_enabled (s := { s with err := e, errcode := c }) hen]
  | true =>
    rw [sequencerStep_of_enabled hen, sequencerStep_of_enabled (s := { s with err := e, errcode := c }) hen,
      phaseStep_withLatch]

theorem sequencerStep_err (s : State) : (sequencerStep s).err = s.err :=
  (congrArg State.err (sequencerStep_withLatch s s.err s.errcode)).trans rfl

/-! What sets the latch does nothing else -/

theorem exec_sets_err {i : Instr} {s t : State} (ht : exec i s = .next t) (hclear : s.err = false) (hset : t.err = true) :
    ∃ c, t = raiseError c s := by
  have hkept : t.err ≠ s.err := by rw [hclear, hset]; exact Bool.false_ne_true.symm
  obtain rfl | hraised | ⟨-, rfl⟩ | ⟨-, hcmd⟩ := exec_next ht
  · exact absurd rfl hkept
  · exact hraised
  · exact absurd hset Bool.false_ne_true
  · obtain ⟨-, rfl⟩ | ⟨b, -, -, rfl⟩ | ⟨c, -, rfl⟩ | ⟨v, -, rfl⟩ | ⟨w, -, rfl⟩ | ⟨-, -, rfl⟩ := hcmd <;>
      exact absurd rfl hkept

theorem busWrite_sets_err {a : PortAddr} {v : Word} {s t : State} (ht : busWrite a v s = .next t) (hclear : s.err = false)
    (hset : t.err = true) : ∃ c, t = raiseError c s := by
  obtain ⟨-, ht⟩ | ⟨-, ht⟩ | ⟨-, -, rfl⟩ := busWrite_next ht
  · obtain ⟨i, -, ht⟩ | ⟨-, c, -, rfl⟩ := commandWrite_next ht
    · exact exec_sets_err ht hclear hset
    · exact ⟨c, rfl⟩
  · obtain hraised | ⟨-, -, rfl⟩ := drawWrite_next ht
    · exact hraised
    · exact absurd (hclear.symm.trans hset) Bool.false_ne_true
  · exact absurd (hclear.symm.trans hset) Bool.false_ne_true

/-- Only a write sets the latch, and the latch is its only effect (R302). -/
theorem step_sets_err {s t : State} (ht : step s = .next t) (hclear : s.err = false) (hset : t.err = true) :
    ∃ a v rest c, s.sched = .host (.write a v) :: rest ∧ t = raiseError c { s with sched := rest } := by
  have hne : ¬ s.err = true := by rw [hclear]; exact Bool.false_ne_true
  obtain ⟨-, rfl⟩ | ⟨tr, rest, hs, ht⟩ := step_next ht
  · exact absurd ((sequencerStep_err s).symm.trans hset) hne
  · cases tr with
    | host acc =>
      cases acc with
      | read a => cases ht; exact absurd hset hne
      | write a v =>
        obtain ⟨c, hc⟩ := busWrite_sets_err (s := { s with sched := rest }) ht hclear hset
        exact ⟨a, v, rest, c, hs, hc⟩
    | sequencer => cases ht; exact absurd ((sequencerStep_err _).symm.trans hset) hne
    | reset d => cases ht; exact absurd hset Bool.false_ne_true

/-- A latched error stays until CLR_ERR or reset (R302, R305). -/
theorem step_keeps_latch {s t : State} (ht : step s = .next t) (hset : s.err = true) :
    (t.err = true ∧ t.errcode = s.errcode) ∨ s.cause = .command .clrErr ∨ s.cause = .reset := by
  obtain ⟨herr, hcode⟩ | ⟨hclear, -⟩ | hcause := step_errorLatch ht
  · exact .inl ⟨herr.trans hset, hcode⟩
  · exact absurd (hclear.symm.trans hset) Bool.false_ne_true
  · exact .inr hcause

/-- Settles O14: `raiseError` by whether an error is latched, the steps that set and keep the latch, and what does not look at it. -/
theorem errorLatchIsPreciseStickyFirstWins : Obligations.ErrorLatchIsPreciseStickyFirstWins :=
  ⟨⟨rfl, rfl, rfl, rfl, rfl, rfl, rfl, rfl, rfl⟩, fun c _ => ⟨raiseError_of_no_err c, raiseError_of_err c⟩,
    fun _ _ => step_sets_err, fun _ _ => step_keeps_latch, sequencerStep_withLatch,
    fun _ _ _ c hrun hclr _ => exec_withLatch true c hrun hclr, fun _ => exec_run_of_err⟩

end Sys2Proof.Machine
end

section
/-! SUPPORT. One step: the transition that it performs, that there always is a next state, and what a run in progress lets the host do
(R64, R231, R350; 93_implementation_defined.md). -/

namespace Sys2Proof.Machine

theorem step_of_sched_nil {s : State} (h : s.sched = []) : step s = .next (sequencerStep s) := by
  rw [step, h]

/-- Settles O7: the head of the schedule is the transition performed, and an empty schedule leaves the sequencer's. -/
theorem stepPerformsScheduledTransition : Obligations.StepPerformsScheduledTransition :=
  fun _ _ => ⟨step_of_sched_nil, step_of_sched, fun _ => step_of_sched, fun _ _ => step_of_sched, fun _ => step_of_sched,
    sequencerStep_of_not_enabled⟩

/-! Every transition has a next state -/

theorem exec_total (i : Instr) (s : State) : ∃ t, exec i s = .next t := by
  by_cases hclr : i = .clrErr
  · exact hclr ▸ ⟨_, rfl⟩
  by_cases hrun : i = .run
  · subst hrun
    cases hbusy : s.busy with
    | true => exact ⟨_, exec_of_busy hbusy nofun nofun⟩
    | false =>
      cases herr : s.err with
      | true => exact ⟨_, exec_run_of_err hbusy herr⟩
      | false => exact ⟨_, exec_run_of_idle hbusy herr⟩
  exact (exec_sameEffect_latch s s.err s.errcode hrun hclr).total

theorem commandWrite_total (v : Word) (s : State) : ∃ t, commandWrite v s = .next t := by
  cases hd : decode v with
  | ok i => exact commandWrite_of_decode hd s ▸ exec_total i s
  | error e =>
    rw [commandWrite, hd]
    exact ⟨_, illegalCommand_eq v e s⟩

theorem drawWrite_total (v : Word) (s : State) : ∃ t, drawWrite v s = .next t := by
  obtain hrange | hrange := Nat.lt_or_ge (v.toNat % 256) 100
  · cases hfull : s.drawFull with
    | true => exact ⟨_, drawWrite_of_full hrange hfull⟩
    | false => exact ⟨_, drawWrite_of_empty hrange hfull⟩
  · exact ⟨_, drawWrite_of_range hrange s⟩

theorem transition_total (tr : Transition) (s : State) : ∃ t, transition tr s = .next t := by
  cases tr with
  | host acc =>
    cases acc with
    | read a => exact ⟨_, rfl⟩
    | write a v =>
      show ∃ t, busWrite a v s = .next t
      unfold busWrite
      split
      · exact commandWrite_total v s
      · exact drawWrite_total v s
      · exact ⟨_, rfl⟩
  | sequencer => exact ⟨_, rfl⟩
  | reset d => exact ⟨_, rfl⟩

/-- Settles O8: no transition stops the block, and the sequencer's step is one. -/
theorem stepNeverStops : Obligations.StepNeverStops := by
  intro s
  cases hs : s.sched with
  | nil => exact ⟨_, step_of_sched_nil hs⟩
  | cons tr rest => exact step_of_sched hs ▸ transition_total tr _

/-! The host during a run (R350) -/

theorem busRead_eq (a : PortAddr) (s : State) :
    busRead a s = { s with rdata := readWord a s, evq := if a = Reg.evtData.addr then s.evq.tail else s.evq } := by
  simp only [busRead, regAt_eq_some_iff]

/-- A word past CLR_ERR's opcode has neither of the two opcodes that a run in progress lets through. -/
theorem opcField_notMem_of_le {v : Word} (h : 2 ^ 25 ≤ v.toNat) : opcField v ∉ [0x00#8, 0x01#8] := by
  have hopc := toNat_opcField v
  have hle : ∀ b ∈ [0x00#8, 0x01#8], b.toNat ≤ 1 := by decide
  intro hmem
  have := hle _ hmem
  omega

/-- Settles O15: the commands' guard, the check of a CMD write before it, and the accesses that have none. -/
theorem busyBlocksCommands : Obligations.BusyBlocksCommands := by
  intro s hbusy
  refine ⟨fun i => exec_of_busy hbusy, fun v hv => commandWrite_of_busy hbusy (opcField_notMem_of_le hv),
    fun a => congrArg Host.Outcome.next (busRead_eq a s), fun v hempty hrange => ?_⟩
  exact (busWrite_draw v s).trans (drawWrite_of_empty hrange hempty)

end Sys2Proof.Machine
end

section
/-! SUPPORT. The state after reset: its elements, what the port reads, and the invariants (R30, R340). -/

namespace Sys2Proof.Machine

/-- A read depends on the state by the registers' values only. -/
theorem readWord_congr {s t : State} (h : ∀ r, readReg r s = readReg r t) (a : PortAddr) : readWord a s = readWord a t := by
  unfold readWord
  cases regAt a with
  | none => rfl
  | some r => exact h r

theorem readReg_resetBlock (d : Option Access) (s : State) (r : Reg) :
    readReg r (resetBlock d s) = readReg r State.reset := by
  cases r <;> rfl

/-- Settles O57: R340's values are those that `resetBlock` writes, and with NFRAMES 0 no frame is readable. -/
theorem resetState : Obligations.ResetState := by
  intro s d
  have hstatus : (resetBlock d s).status = State.reset.status := readReg_resetBlock d s .status
  exact ⟨rfl, rfl, rfl, rfl, rfl, rfl, rfl, rfl, rfl, hstatus, rfl, rfl, rfl, rfl, rfl, rfl, rfl, rfl, rfl, rfl,
    fun k => exec_frameLoad_of_none rfl (Nat.zero_le _), readWord_congr (readReg_resetBlock d s)⟩

theorem reset_inv : State.reset.Inv where
  storage :=
    { cfgLegal := by decide
      bitbufFits := Nat.zero_le _
      bitbufBytes := rfl
      workFits := Nat.zero_le _
      fifoFits := Nat.zero_le _
      ndataFits := Nat.zero_le _
      ftabCanonical := rfl
      ctabCanonical := rfl
      ftabSlots := nofun
      ctabSlots := nofun
      framesStored := nofun
      crcsStored := nofun
      drawLegal := nofun
      errLatch := rfl }
  control := Nat.zero_le _
  run := nofun

theorem reset_unsent : State.reset.Unsent := ⟨rfl, rfl, rfl, rfl, rfl, rfl, rfl⟩

/-- Settles O48: the storage is empty, no run is in progress, and no attempt has been made. -/
theorem invariantsHoldAtReset : Obligations.InvariantsHoldAtReset :=
  ⟨reset_inv, framesInv_of_idle rfl, reset_unsent.statsInv nofun, reset_unsent.attemptsInv⟩

end Sys2Proof.Machine
end

section
/-! SUPPORT. The contents that reset leaves unspecified: no transition lets them out (R23, R24, R340). -/

namespace Sys2Proof.Machine

/-- `s` with other contents of the slots that nothing has written, and another value in the draw slot. -/
def State.withHidden (s : State) (r : Nat) (d : BitVec 7) : State := { s with resets := r, drawVal := d }

theorem sameVisible_iff {s s' : State} :
    s.sameVisible s' ↔ ∃ r d, (s.drawFull = true → d = s.drawVal) ∧ s' = s.withHidden r d := by
  constructor
  · rintro ⟨hs', hdraw⟩
    exact ⟨_, _, hdraw, hs'⟩
  · rintro ⟨r, d, hdraw, rfl⟩
    exact ⟨rfl, hdraw⟩

/-- What depends on no hidden content is the same. -/
theorem State.sameVisible.congr {α : Type} {s s' : State} (h : s.sameVisible s') (f : State → α)
    (hf : ∀ r d, f (s.withHidden r d) = f s) : f s' = f s := by
  obtain ⟨r, d, -, rfl⟩ := sameVisible_iff.1 h
  exact hf r d

/-! The slots that the block reads are stored (R23, R24) -/

theorem frameAt_withHidden {s : State} (h : s.StorageInv) (r : Nat) (d : BitVec 7) {k : Nat} (hk : k < s.nframes.toNat) :
    (s.withHidden r d).frameAt k = s.frameAt k := by
  obtain ⟨f, hf⟩ := Option.isSome_iff_exists.1 (h.framesStored k hk)
  rw [frameAt_of_read hf, frameAt_of_read (s := s.withHidden r d) hf]

theorem crcAt_withHidden {s : State} (h : s.StorageInv) (r : Nat) (d : BitVec 7) {k : Nat} (hk : k < s.built) :
    (s.withHidden r d).crcAt k = s.crcAt k := by
  obtain ⟨c, hc⟩ := Option.isSome_iff_exists.1 (h.crcsStored k hk)
  rw [crcAt_of_read hc, crcAt_of_read (s := s.withHidden r d) hc]

/-- At CKSUM every data frame has its CRC in CTAB. -/
theorem cksInput_withHidden {s : State} (h : s.StorageInv) (hn : s.nframes.toNat = s.ndata.toNat) (r : Nat) (d : BitVec 7) :
    cksInput (s.withHidden r d) = cksInput s := by
  refine List.flatMap_congr fun i hi => ?_
  have hbuilt : s.built = s.ndata.toNat := by rw [built_eq_nframes (Nat.le_of_eq hn), hn]
  have hi : i < s.built := hbuilt ▸ List.mem_range.1 hi
  rw [crcAt_withHidden h r d hi]

/-! The sequencer -/

theorem stepCksum_withHidden {s : State} (h : s.StorageInv) (hn : s.nframes.toNat = s.ndata.toNat) (r : Nat) (d : BitVec 7) :
    stepCksum (s.withHidden r d) = (stepCksum s).withHidden r d := by
  unfold stepCksum
  rw [cksInput_withHidden h hn]
  rfl

theorem attemptFailed_withHidden (s : State) (r : Nat) (d : BitVec 7) :
    attemptFailed (s.withHidden r d) = (attemptFailed s).withHidden r d := by
  show (if s.att < retryCap then _ else _) = _
  unfold attemptFailed
  split <;> rfl

theorem stepLoss_withHidden (s : State) (r : Nat) :
    stepLoss (s.withHidden r s.drawVal) = (stepLoss s).withHidden r s.drawVal := by
  by_cases hlost : dataLost s.drawVal = true
  · rw [stepLoss_of_lost hlost, stepLoss_of_lost (s := s.withHidden r s.drawVal) hlost, ← attemptFailed_withHidden]
    rfl
  · rw [stepLoss_of_kept hlost, stepLoss_of_kept (s := s.withHidden r s.drawVal) hlost]
    rfl

theorem stepCorr_withHidden (s : State) (r : Nat) :
    stepCorr (s.withHidden r s.drawVal) = (stepCorr s).withHidden r s.drawVal := by
  obtain ⟨hdata, hcorrupt⟩ | ⟨hctl, hcorrupt⟩ | hclean := s.corrupted_cases
  · rw [stepCorr_of_data hdata hcorrupt, stepCorr_of_data (s := s.withHidden r s.drawVal) hdata hcorrupt]
    rfl
  · rw [stepCorr_of_control hctl hcorrupt, stepCorr_of_control (s := s.withHidden r s.drawVal) hctl hcorrupt]
    rfl
  · rw [stepCorr_of_clean hclean, stepCorr_of_clean (s := s.withHidden r s.drawVal) hclean]
    rfl

theorem stepAck_withHidden (s : State) (r : Nat) :
    stepAck (s.withHidden r s.drawVal) = (stepAck s).withHidden r s.drawVal := by
  by_cases hlost : ackLost s.drawVal = true
  · rw [stepAck_of_lost hlost, stepAck_of_lost (s := s.withHidden r s.drawVal) hlost, ← attemptFailed_withHidden]
    rfl
  · rw [stepAck_of_received hlost, stepAck_of_received (s := s.withHidden r s.drawVal) hlost]
    rfl

theorem phaseStep_withHidden {s : State} (h : s.Inv) (r : Nat) {d : BitVec 7} (hdraw : s.phase.drawing = true → d = s.drawVal) :
    phaseStep (s.withHidden r d) = (phaseStep s).withHidden r d := by
  have hphase : (s.withHidden r d).phase = s.phase := rfl
  unfold phaseStep
  rw [hphase]
  split <;> rename_i hp
  · rfl
  · rfl
  · exact stepCksum_withHidden h.storage ((controlInv_cksum hp).1 h.control).1 r d
  · rfl
  · exact hdraw (hp ▸ rfl) ▸ stepLoss_withHidden s r
  · exact hdraw (hp ▸ rfl) ▸ stepCorr_withHidden s r
  · rfl
  · exact hdraw (hp ▸ rfl) ▸ stepAck_withHidden s r
  · rfl
  · rfl

/-- The sequencer fills no draw slot, and keeps its value. -/
theorem sequencerStep_drawSlot {s : State} (h : (sequencerStep s).drawFull = true) :
    s.drawFull = true ∧ (sequencerStep s).drawVal = s.drawVal := by
  cases hen : s.enabled with
  | false =>
    rw [sequencerStep_of_not_enabled hen] at h ⊢
    exact ⟨h, rfl⟩
  | true =>
    obtain ⟨-, -, hdraw⟩ := State.enabled_iff.1 hen
    rw [Phase.drawing_eq, decide_eq_true_iff] at hdraw
    obtain ⟨-, -, -, hval, -⟩ := phaseStep_keeps s
    rw [sequencerStep_of_enabled hen] at h ⊢
    obtain hkept | hp := phaseStep_keeps_drawFull_or_draws s
    · exact ⟨hkept.symm.trans h, hval⟩
    · exact ⟨hdraw hp, hval⟩

theorem sequencerStep_withHidden {s : State} (h : s.Inv) (r : Nat) {d : BitVec 7} (hdraw : s.drawFull = true → d = s.drawVal) :
    sequencerStep (s.withHidden r d) = (sequencerStep s).withHidden r d := by
  cases hen : s.enabled with
  | false => rw [sequencerStep_of_not_enabled hen, sequencerStep_of_not_enabled (s := s.withHidden r d) hen]
  | true =>
    obtain ⟨-, -, hfull⟩ := State.enabled_iff.1 hen
    rw [sequencerStep_of_enabled hen, sequencerStep_of_enabled (s := s.withHidden r d) hen,
      phaseStep_withHidden h r fun hp => hdraw (hfull hp)]

theorem sequencerStep_sameVisible {s s' : State} (hinv : s.Inv) (h : s.sameVisible s') :
    (sequencerStep s).sameVisible (sequencerStep s') := by
  obtain ⟨r, d, hdraw, rfl⟩ := sameVisible_iff.1 h
  refine sameVisible_iff.2 ⟨r, d, fun hfull => ?_, sequencerStep_withHidden hinv r hdraw⟩
  obtain ⟨hfull, hval⟩ := sequencerStep_drawSlot hfull
  exact hval ▸ hdraw hfull

/-! The host's accesses and reset -/

theorem readReg_withHidden (s : State) (r : Nat) (d : BitVec 7) (reg : Reg) :
    readReg reg (s.withHidden r d) = readReg reg s := by
  cases reg <;> rfl

theorem busRead_sameVisible {s s' : State} (a : PortAddr) (h : s.sameVisible s') :
    (busRead a s).sameVisible (busRead a s') := by
  obtain ⟨r, d, hdraw, rfl⟩ := sameVisible_iff.1 h
  refine sameVisible_iff.2 ⟨r, d, hdraw, ?_⟩
  rw [busRead, readWord_congr (readReg_withHidden s r d)]
  rfl

theorem raiseError_sameVisible {s s' : State} (c : ErrorCause) (h : s.sameVisible s') :
    (raiseError c s).sameVisible (raiseError c s') := by
  obtain ⟨r, d, hdraw, rfl⟩ := sameVisible_iff.1 h
  exact ⟨rfl, hdraw⟩

theorem startRun_sameVisible {s s' : State} (h : s.sameVisible s') : (startRun s).sameVisible (startRun s') := by
  obtain ⟨r, d, -, rfl⟩ := sameVisible_iff.1 h
  exact ⟨rfl, nofun⟩

theorem exec_run_sameVisible {s s' t : State} (h : s.sameVisible s') (ht : exec .run s = .next t) :
    ∃ t', exec .run s' = .next t' ∧ t.sameVisible t' := by
  have hbusy' : s'.busy = s.busy := h.congr State.busy fun _ _ => rfl
  have herr' : s'.err = s.err := h.congr State.err fun _ _ => rfl
  cases hbusy : s.busy with
  | true =>
    cases (exec_of_busy (i := .run) hbusy nofun nofun).symm.trans ht
    exact ⟨_, exec_of_busy (hbusy'.trans hbusy) nofun nofun, raiseError_sameVisible _ h⟩
  | false =>
    cases herr : s.err with
    | true =>
      cases (exec_run_of_err hbusy herr).symm.trans ht
      exact ⟨_, exec_run_of_err (hbusy'.trans hbusy) (herr'.trans herr), h⟩
    | false =>
      cases (exec_run_of_idle hbusy herr).symm.trans ht
      exact ⟨_, exec_run_of_idle (hbusy'.trans hbusy) (herr'.trans herr), startRun_sameVisible h⟩

theorem exec_sameVisible {i : Instr} {s s' t : State} (hinv : s.StorageInv) (h : s.sameVisible s')
    (ht : exec i s = .next t) : ∃ t', exec i s' = .next t' ∧ t.sameVisible t' := by
  by_cases hrun : i = .run
  · subst hrun
    exact exec_run_sameVisible h ht
  obtain ⟨r, d, hdraw, rfl⟩ := sameVisible_iff.1 h
  by_cases hclr : i = .clrErr
  · subst hclr
    cases ht
    exact ⟨_, rfl, rfl, hdraw⟩
  have heffect : SameEffect s (s.withHidden r d) (exec i s) (exec i (s.withHidden r d)) :=
    exec_sameEffect (e := s.err) (c := s.errcode) s hrun hclr fun _ => frameAt_withHidden hinv r d
  rw [ht] at heffect
  generalize exec i (s.withHidden r d) = result at heffect
  cases heffect with
  | raises k => exact ⟨_, rfl, raiseError_sameVisible k h⟩
  | writes => exact ⟨_, rfl, rfl, hdraw⟩

theorem commandWrite_sameVisible {v : Word} {s s' t : State} (hinv : s.StorageInv) (h : s.sameVisible s')
    (ht : commandWrite v s = .next t) : ∃ t', commandWrite v s' = .next t' ∧ t.sameVisible t' := by
  cases hd : decode v with
  | ok i =>
    rw [commandWrite_of_decode hd] at ht ⊢
    exact exec_sameVisible hinv h ht
  | error e =>
    have hbusy : s'.busy = s.busy := h.congr State.busy fun _ _ => rfl
    simp only [commandWrite, hd, illegalCommand_eq, hbusy] at ht ⊢
    cases ht
    exact ⟨_, rfl, raiseError_sameVisible _ h⟩

theorem drawWrite_sameVisible {v : Word} {s s' t : State} (h : s.sameVisible s') (ht : drawWrite v s = .next t) :
    ∃ t', drawWrite v s' = .next t' ∧ t.sameVisible t' := by
  have hfull' : s'.drawFull = s.drawFull := h.congr State.drawFull fun _ _ => rfl
  obtain hrange | hrange := Nat.lt_or_ge (v.toNat % 256) 100
  · cases hfull : s.drawFull with
    | true =>
      cases (drawWrite_of_full hrange hfull).symm.trans ht
      exact ⟨_, drawWrite_of_full hrange (hfull'.trans hfull), raiseError_sameVisible _ h⟩
    | false =>
      cases (drawWrite_of_empty hrange hfull).symm.trans ht
      obtain ⟨r, d, -, rfl⟩ := sameVisible_iff.1 h
      exact ⟨_, drawWrite_of_empty hrange hfull, rfl, fun _ => rfl⟩
  · cases (drawWrite_of_range hrange s).symm.trans ht
    exact ⟨_, drawWrite_of_range hrange s', raiseError_sameVisible _ h⟩

/-- A read tried during reset is the one access that returns what R340 leaves open. -/
theorem resetBlock_sameVisible {s s' : State} {during : Option Access} (hread : ∀ a, during ≠ some (.read a))
    (h : s.sameVisible s') : (resetBlock during s).sameVisible (resetBlock during s') := by
  obtain ⟨r, d, -, rfl⟩ := sameVisible_iff.1 h
  match during, hread with
  | none, _ => exact ⟨rfl, nofun⟩
  | some (.write a v), _ => exact ⟨rfl, nofun⟩
  | some (.read a), hread => exact absurd rfl (hread a)

/-! One step -/

theorem transition_sameVisible {tr : Transition} {s s' t : State} (hinv : s.Inv) (h : s.sameVisible s')
    (hread : ∀ a, tr ≠ .reset (some (.read a))) (ht : transition tr s = .next t) :
    ∃ t', transition tr s' = .next t' ∧ t.sameVisible t' := by
  obtain ⟨a, rfl, rfl⟩ | ⟨v, rfl, ht⟩ | ⟨v, rfl, ht⟩ | ⟨a, v, rfl, hcmd, hdraw, rfl⟩ | ⟨rfl, rfl⟩ | ⟨d, rfl, rfl⟩ :=
    transition_next ht
  · exact ⟨_, rfl, busRead_sameVisible a h⟩
  · obtain ⟨t', ht', hvisible⟩ := commandWrite_sameVisible hinv.storage h ht
    exact ⟨t', (busWrite_cmd v s').trans ht', hvisible⟩
  · obtain ⟨t', ht', hvisible⟩ := drawWrite_sameVisible h ht
    exact ⟨t', (busWrite_draw v s').trans ht', hvisible⟩
  · exact ⟨_, busWrite_ignored hcmd hdraw v s', h⟩
  · exact ⟨_, rfl, sequencerStep_sameVisible hinv h⟩
  · exact ⟨_, rfl, resetBlock_sameVisible (fun a hd => hread a (congrArg _ hd)) h⟩

theorem step_sameVisible {s s' t : State} (hinv : s.Inv) (h : s.sameVisible s')
    (hread : ∀ a, s.sched.head? ≠ some (.reset (some (.read a)))) (ht : step s = .next t) :
    ∃ t', step s' = .next t' ∧ t.sameVisible t' := by
  have hsched : s'.sched = s.sched := h.congr State.sched fun _ _ => rfl
  obtain ⟨hs, rfl⟩ | ⟨tr, rest, hs, ht⟩ := step_next ht
  · exact ⟨_, step_of_sched_nil (hsched.trans hs), sequencerStep_sameVisible hinv h⟩
  · have hrest : { s with sched := rest }.sameVisible { s' with sched := rest } := by
      obtain ⟨r, d, hdraw, rfl⟩ := sameVisible_iff.1 h
      exact ⟨rfl, hdraw⟩
    rw [step_of_sched (hsched.trans hs)]
    refine transition_sameVisible (withSched_inv hinv rest) hrest (fun a htr => hread a ?_) ht
    rw [hs, htr, List.head?_cons]

/-- Settles O58: the steps are alike, and neither the word last read nor the FIFO is among what they may differ in. -/
theorem unspecifiedContentsStayHidden : Obligations.UnspecifiedContentsStayHidden := by
  intro s s' t hinv h hread ht
  obtain ⟨t', ht', hvisible⟩ := step_sameVisible hinv h hread ht
  exact ⟨t', ht', hvisible, hvisible.congr State.rdata fun _ _ => rfl, hvisible.congr State.evq fun _ _ => rfl⟩

end Sys2Proof.Machine
end
